-- ==== Sys2Proof/Word.lean ====
section
/-! DEFINITION. The value types of the jank-crypt CORE (spec/00_scope.md R7, R8, R11): octets, 32-bit
words (SHA-1 words and registers), 64-bit words (USHA0 words and operands), and byte sequences. Every value is
unsigned; addition of `BitVec` is addition modulo 2^32 or 2^64, as R8 asks. -/

namespace Sys2Proof

/-- An octet (R7: width 8). -/
abbrev Byte := BitVec 8

/-- A 32-bit word: a SHA-1 word or an MMIO register (R7). -/
abbrev Word32 := BitVec 32

/-- A 64-bit word: a USHA0 word, an operand or an operand-memory address (R7). -/
abbrev Word64 := BitVec 64

/-- A byte sequence: "a finite list of octets" (R11). -/
abbrev Bytes := List Byte

end Sys2Proof
end

