-- ==== Sys2Proof/Machine/Bytes.lean ====
section
/-! DEFINITION. Byte sequences and byte order: everything is big-endian (spec/00_scope.md R11, spec/20_memory.md R75),
and the packing of byte results into registers (spec/30_encoding.md R95, R97). -/

namespace Sys2Proof.Machine

/-- `B[i]`; 0 past the end, which no rule reads. -/
def byteAt (B : Bytes) (i : Nat) : Byte := B.getD i 0

/-- `be_u32(B[i .. i+4])` (R11): `B[i]` is the most significant octet. -/
def beU32 (B : Bytes) (i : Nat) : Word32 := byteAt B i ++ byteAt B (i + 1) ++ byteAt B (i + 2) ++ byteAt B (i + 3)

/-- `be_u64(B[i .. i+8])` (R11). -/
def beU64 (B : Bytes) (i : Nat) : Word64 := beU32 B i ++ beU32 B (i + 4)

/-- `be4(v)` (R11). -/
def be4 (v : Word32) : Bytes := [v.extractLsb' 24 8, v.extractLsb' 16 8, v.extractLsb' 8 8, v.extractLsb' 0 8]

/-- `be8(v)` (R11). -/
def be8 (v : Word64) : Bytes := be4 (v.extractLsb' 32 32) ++ be4 (v.extractLsb' 0 32)

/-- `0x00^n` (R11). -/
def zeros (n : Nat) : Bytes := List.replicate n 0

/-- The `j`-th block of `k` octets: `B[k·j .. k·j + k]`. -/
def blockAt (k : Nat) (B : Bytes) (j : Nat) : Bytes := (B.drop (k * j)).take k

/-- Result-bank packing (R95): word k is `be_u32(B[4k .. 4k+4])` where the result reaches, else 0. -/
def pack (B : Bytes) : Vector Word32 16 :=
  Vector.ofFn fun k : Fin 16 => if 4 * k.val + 4 ≤ B.length then beU32 B (4 * k.val) else 0

/-- OTP string packing (R97): the digits, zero-filled to 12 octets, in three words. -/
def packstr (s : Bytes) : Vector Word32 3 :=
  Vector.ofFn fun k : Fin 3 => beU32 (s ++ zeros (12 - s.length)) (4 * k.val)

end Sys2Proof.Machine
end

