-- ==== Sys2Proof/Syntax.lean ====
section
/-! DEFINITION. The command set (spec/30_encoding.md R90, R91, spec/opcode_table.json): one constructor a row. A
command names no registers and carries no immediates (R90: "There are no register fields, immediate fields or mode
bits"), so no constructor has an argument. -/

namespace Sys2Proof

/-- The eleven commands of R91. -/
inductive Instr where
  | sha1Init     -- SHA1_INIT    (R122)
  | sha1Block    -- SHA1_BLOCK   (R123)
  | sha1         -- SHA1         (R124)
  | usha0        -- USHA0        (R169)
  | hmacIpad     -- HMAC_IPAD    (R195)
  | hmacOpad     -- HMAC_OPAD    (R196)
  | hmac         -- HMAC         (R197)
  | totpCounter  -- TOTP_COUNTER (R219)
  | otpTrunc     -- OTP_TRUNC    (R220)
  | hotp         -- HOTP         (R221)
  | totp         -- TOTP         (R222)
deriving DecidableEq, Repr

/-- The eleven commands in the order of R91's table. -/
def Instr.all : List Instr :=
  [.sha1Init, .sha1Block, .sha1, .usha0, .hmacIpad, .hmacOpad, .hmac, .totpCounter, .otpTrunc, .hotp, .totp]

/-- A command word, split into the two fields of its one format (R90): OPC in bits 7:0, RSVD in bits 31:8. -/
structure CmdWord where
  opc  : BitVec 8
  rsvd : BitVec 24
deriving DecidableEq, Repr

end Sys2Proof
end

