-- ==== Sys2Proof/WellFormed.lean ====
section
/-! DEFINITION. Which command words are legal (spec/30_encoding.md R90, R92). A constructor of `Instr` has no operand
that could be out of range, so every `Instr` is well formed; what can be ill formed is the word, and the two checks
below are the two ways R92 names. -/

namespace Sys2Proof

/-- RSVD "must be zero" (R90). -/
def CmdWord.rsvdZero (c : CmdWord) : Bool := c.rsvd == 0#24

/-- OPC is assigned: 0x01 to 0x0B; 0x00 and 0x0C to 0xFF are illegal (R92). -/
def CmdWord.opcAssigned (c : CmdWord) : Bool := decide (1 ≤ c.opc.toNat ∧ c.opc.toNat ≤ 0x0B)

/-- A legal command word (R92). -/
def CmdWord.wellFormed (c : CmdWord) : Bool := c.rsvdZero && c.opcAssigned

/-- Every command is well formed: it has no fields (R90). -/
def Instr.wellFormed : Instr → Bool
  | .sha1Init | .sha1Block | .sha1 | .usha0 | .hmacIpad | .hmacOpad | .hmac | .totpCounter | .otpTrunc | .hotp
  | .totp => true

end Sys2Proof
end

