-- ==== Sys2Proof/Decode.lean ====
section
/-! DEFINITION. Decoding and encoding command words (spec/30_encoding.md R90 to R92, R98): total on all 2^32 words,
each either one of the eleven commands or illegal by name. -/

namespace Sys2Proof

/-- Why a word is no command (R92). Both end, at completion, in E_ILLEGAL. -/
inductive DecodeError where
  | reservedBits       -- RSVD != 0
  | unassignedOpcode   -- OPC = 0x00 or 0x0C..0xFF
deriving DecidableEq, Repr

/-- The two fields of a command word (R90). -/
def splitWord (w : Word32) : CmdWord where
  opc := w.extractLsb' 0 8
  rsvd := w.extractLsb' 8 24

/-- The word with these fields (R90: RSVD above OPC). -/
def joinWord (c : CmdWord) : Word32 := c.rsvd ++ c.opc

/-- R91's OPC column, read as a map from opcodes to commands. -/
def commandOf (opc : BitVec 8) : Option Instr :=
  match opc.toNat with
  | 0x01 => some .sha1Init
  | 0x02 => some .sha1Block
  | 0x03 => some .sha1
  | 0x04 => some .usha0
  | 0x05 => some .hmacIpad
  | 0x06 => some .hmacOpad
  | 0x07 => some .hmac
  | 0x08 => some .totpCounter
  | 0x09 => some .otpTrunc
  | 0x0A => some .hotp
  | 0x0B => some .totp
  | _ => none

/-- Decode a command word, or say why it is illegal (R92). -/
def decodeCmd (w : Word32) : Except DecodeError Instr :=
  if (splitWord w).rsvdZero then
    match commandOf (splitWord w).opc with
    | some i => .ok i
    | none => .error .unassignedOpcode
  else .error .reservedBits

/-- The command a word is, if it is one. -/
def decode (w : Word32) : Option Instr :=
  match decodeCmd w with
  | .ok i => some i
  | .error _ => none

/-- R91's "full word" column. -/
def encode : Instr → Word32
  | .sha1Init    => 0x00000001
  | .sha1Block   => 0x00000002
  | .sha1        => 0x00000003
  | .usha0       => 0x00000004
  | .hmacIpad    => 0x00000005
  | .hmacOpad    => 0x00000006
  | .hmac        => 0x00000007
  | .totpCounter => 0x00000008
  | .otpTrunc    => 0x00000009
  | .hotp        => 0x0000000A
  | .totp        => 0x0000000B

/-- The low `nbits` bits of `w`, as the number the opcode table uses: a command is one 32-bit bus word and bit i of
the word is bit i of the number (R31, R90). -/
def tableBits (nbits w : Nat) : Nat := w % 2 ^ nbits

/-- The command the decoder reads from a table word; a number that needs more than CMD's 32 bits is none (log 20). -/
def decodeTableWord (nbits w : Nat) : Option Instr :=
  if tableBits nbits w < 2 ^ 32 then decode (BitVec.ofNat 32 (tableBits nbits w)) else none

end Sys2Proof
end

