-- ==== Sys2Proof/Config.lean ====
section
/-! DEFINITION. What the platform fixes (the OPEN parameters of spec/00_scope.md R6), as plain data a state
carries and no step changes, and the free values: what the spec leaves to "any value". -/

namespace Sys2Proof

/-- A half-open range `[lo, hi)` of operand-memory addresses. -/
structure AddrRange where
  lo : Nat
  hi : Nat
deriving DecidableEq, Repr

/-- The OPEN parameters of R6, taken as an argument of the model: a state holds them, every statement
quantifies over them, and no step changes them (log 1). A predicate on the 2^64 addresses is held as the finite
list of the ranges where it fails (`unreadable`) or holds (`readSideEffects`): log 18. -/
structure Config where
  /-- P_MMIO_BASE: host bus address of the MMIO window (R31; log 19). -/
  mmioBase : Nat
  /-- P_CORE_ID: the value the ID register reads (R34). -/
  coreId : Word32
  /-- P_MEM_READABLE is false exactly on these ranges (R71). -/
  unreadable : List AddrRange
  /-- Where the platform's memory has read side effects (R78, 93 I3): no operand region should meet these. -/
  readSideEffects : List AddrRange
  /-- P_USHA0_ALIGNED_PAD (R150). -/
  usha0AlignedPad : Bool
deriving DecidableEq, Repr

/-- The parameters `State.reset` carries (log 1, DESIGN CHOICE): window at 0, ID 0, all memory readable and free of
read side effects, and R6's recommended default `false` for P_USHA0_ALIGNED_PAD. -/
def Config.default : Config where
  mmioBase := 0
  coreId := 0
  unreadable := []
  readSideEffects := []
  usha0AlignedPad := false

/-! Free values. Nothing constrains them: each is applied to the number of the draw (`State.draws`, a plain counter)
and to the slot it fills, so that each draw is fresh (93 I1, I2, I3, I9; log 5, 6, 8). -/

/-- A free 32-bit word. -/
opaque Config.freeWord32 : Nat → Nat → BitVec 32

/-- 31 free bits (those of OTP_BIN, whose bit 31 is always 0: R44). -/
opaque Config.freeWord31 : Nat → BitVec 31

/-- A free 64-bit word. -/
opaque Config.freeWord64 : Nat → Nat → BitVec 64

/-- A free list of 64-bit words, of free length (the residue of USHA0's extended message X). -/
opaque Config.freeWords64 : Nat → List (BitVec 64)

/-- A free choice among the outcomes of a racy command (R82 item 3). -/
opaque Config.freeChoice : Nat → Nat

end Sys2Proof
end

