-- ==== Sys2Proof/Machine/State.lean ====
section
/-! DEFINITION. The state of the jank-crypt CORE (spec/10_state.md R30: "the registers of rule R32, the hidden state of
rules R50 to R52, and the memory"), with the model's own fields beside it: the platform parameters, the schedule of
outside events, the last bus reply and the draw counter. -/

namespace Sys2Proof.Machine

/-- The step of this machine never faults: "The core has no error surface" of its own, an error of a command is
reported in STATUS (R252), and a bad host access is answered on the bus (R31, log 9). So no constructor. -/
inductive Fault where
deriving DecidableEq, Repr

/-- The reasons a meaning may be refused. -/
inductive Refusal where
  /-- Raised by an arm of `exec` whose command has no meaning yet; none is left. Safe: the model stops. -/
  | notModelled (mnemonic : String)
deriving DecidableEq, Repr

/-- The codes of STATUS.ERRCODE (R243). Codes 0x07 to 0xFF are "never produced", so they are no constructor. -/
inductive ErrCode where
  | eNone | eIllegal | eLen | eRange | eBus | eDigits | eStep
deriving DecidableEq, Repr

/-- The flags and fields of STATUS but BUSY, which shows the engine phase (R36, R50). -/
structure Status where
  done    : Bool
  err     : Bool
  ovr     : Bool
  errcode : ErrCode
  lastop  : BitVec 8
deriving DecidableEq, Repr

/-- The fourteen operand registers (R39). -/
structure OperandRegs where
  srcLo  : Word32
  srcHi  : Word32
  lenLo  : Word32
  lenHi  : Word32
  keyLo  : Word32
  keyHi  : Word32
  klenLo : Word32
  klenHi : Word32
  ctrLo  : Word32
  ctrHi  : Word32
  timeLo : Word32
  timeHi : Word32
  stepLo : Word32
  stepHi : Word32
deriving DecidableEq, Repr

/-- The SHA-1 state: "Ordered 5-tuple of 32-bit unsigned integers (H0..H4)" (R42). -/
structure Sha1State where
  h0 : Word32
  h1 : Word32
  h2 : Word32
  h3 : Word32
  h4 : Word32
deriving DecidableEq, Repr

/-- The SHA-1 initial value (R110). -/
def Sha1State.iv : Sha1State := ⟨0x67452301, 0xEFCDAB89, 0x98BADCFE, 0x10325476, 0xC3D2E1F0⟩

/-- The round registers (a, b, c, d, e) (R51, R116). -/
structure RoundVars where
  a : Word32
  b : Word32
  c : Word32
  d : Word32
  e : Word32
deriving DecidableEq, Repr

/-- The snapshot taken at acceptance (R50). -/
structure Snapshot where
  cmd    : Word32
  src    : Word64
  len    : Word64
  key    : Word64
  klen   : Word64
  ctr    : Word64
  time   : Word64
  step   : Word64
  digits : BitVec 8
  h      : Sha1State
deriving DecidableEq, Repr

/-- The engine phase (R50): IDLE, or BUSY with the snapshot ("The snapshot does not exist in phase IDLE"). `racy`
records that an agent has written an operand byte of the command since its acceptance (R82 item 3). -/
inductive Engine where
  | idle
  | busy (snap : Snapshot) (racy : Bool)
deriving DecidableEq, Repr

/-- An operand region `[base, base + len)` (R73). -/
structure Region where
  base : Nat
  len  : Nat
deriving DecidableEq, Repr

/-- A row of R245's table: which of the checks 2 to 9 a command has. -/
structure Checks where
  /-- Check 2: 1 <= d <= 10. -/
  digits : Bool := false
  /-- Check 3: STEP != 0. -/
  step   : Bool := false
  /-- Check 4: KLEN <= MAX_LEN. -/
  klen   : Bool := false
  /-- Check 5: LEN at most this. -/
  lenMax : Option Nat := none
  /-- Checks 6 and 8: the key region. -/
  key    : Option Region := none
  /-- Checks 7 and 9: the data region. -/
  data   : Option Region := none
deriving DecidableEq, Repr

/-- A completed command the host has not yet observed to be complete (R82 item 4, R274): the command (none for an illegal
word), its checks, whose regions are its operand regions, the code it ended with, and whether its results and outcome
were drawn because a platform write raced it. -/
structure Completed where
  command : Option Instr
  checks  : Checks
  outcome : ErrCode
  raced   : Bool
deriving DecidableEq, Repr

/-- The hidden SHA-1 working state (R51): the schedule W[0..79], the round registers, the private SHA-1 state. -/
structure Sha1Work where
  w    : Vector Word32 80
  vars : RoundVars
  h    : Sha1State
deriving DecidableEq, Repr

/-- The hidden USHA0 working state (R52): the extender array E[0..47], the extended message X, the state S[0..31]. -/
structure Usha0Work where
  e : Vector Word64 48
  x : List Word64
  s : Vector Word64 32
deriving DecidableEq, Repr

/-- The width of a host access; only 32-bit accesses are legal (R31). -/
inductive AccessSize where
  | byte | half | word | dword
deriving DecidableEq, Repr

/-- The transitions of R260, as events the outside world schedules. `complete` says that the engine's own step is the
next to be taken; an `addr` is a host bus address (log 19). `hostIrq` is no transition of the core: the host looks at the
interrupt output, as R82 item 4 lets it (log 21). -/
inductive Event where
  | hostWrite (addr : Nat) (size : AccessSize) (value : Word32)
  | hostRead (addr : Nat) (size : AccessSize)
  | hostIrq
  | complete
  | memWrite (addr : Word64) (value : Byte)
  | reset
deriving DecidableEq, Repr

/-- The core's answer to the last host access: a write done, the value read, the bus error of R31, or the level of the
interrupt output (log 10). -/
inductive Reply where
  | none
  | written
  | data (value : Word32)
  | busError
  | irq (level : Bool)
deriving DecidableEq, Repr

/-- Operand memory (R71) as the bytes that differ from `Memory.unlisted`, by strictly rising address. -/
abbrev Memory := List Host.Cell

/-- The whole machine. A field's docstring names its rule; INVENTORY.md lists them with their reset values. -/
structure State where
  /-- The platform parameters (R6). -/
  config    : Config
  /-- Operand memory (R71). -/
  mem       : Memory
  /-- CTRL.IE (R35); bits 31:1 of CTRL are RAZ/WI. -/
  ie        : Bool
  /-- STATUS but BUSY (R36). -/
  status    : Status
  /-- SRC, LEN, KEY, KLEN, CTR, TIME, STEP, low and high halves (R39). -/
  operands  : OperandRegs
  /-- DIGITS[7:0] (R40); bits 31:8 are RAZ/WI. -/
  digits    : BitVec 8
  /-- FADDR = FADDR_HI : FADDR_LO (R41). -/
  faddr     : Word64
  /-- H0..H4 (R42). -/
  h         : Sha1State
  /-- RES0..RES15 (R43). -/
  res       : Vector Word32 16
  /-- OTP_BIN (R44). -/
  otpBin    : Word32
  /-- OTP_VAL (R44). -/
  otpVal    : Word32
  /-- OTP_STR0..2 (R44). -/
  otpStr    : Vector Word32 3
  /-- OTP_CNT = OTP_CNT_HI : OTP_CNT_LO (R44). -/
  otpCnt    : Word64
  /-- The engine phase and snapshot (R50); STATUS.BUSY shows it. -/
  engine    : Engine
  /-- The hidden SHA-1 working state (R51): no value after reset (R55), a free residue after a command (R282). -/
  sha1Work  : Option Sha1Work
  /-- The hidden USHA0 working state (R52), likewise. -/
  usha0Work : Option Usha0Work
  /-- The model's own: the outside world's next events, the next first (R260; log 4). -/
  inputs    : List Event
  /-- The model's own: the answer to the last host access (log 10). -/
  reply     : Reply
  /-- The model's own: how many free values have been drawn (log 5). -/
  draws     : Nat
  /-- The model's own: the commands completed since the host last observed a completion, the oldest first (R82 item 4,
  R274; log 6). -/
  unobserved : List Completed
deriving DecidableEq, Repr

/-- The core right after reset on a platform with these parameters and this memory (R55, R270, R272): H0..H4 the SHA-1
initial value, everything else 0, the engine idle, no working state. Only the model's schedule and draw counter go on. -/
def State.resetWith (config : Config) (mem : Memory) (inputs : List Event) (draws : Nat) : State where
  config    := config
  mem       := mem
  ie        := false
  status    := { done := false, err := false, ovr := false, errcode := .eNone, lastop := 0 }
  operands  := ⟨0, 0, 0, 0, 0, 0, 0, 0, 0, 0, 0, 0, 0, 0⟩
  digits    := 0
  faddr     := 0
  h         := .iv
  res       := Vector.replicate 16 0
  otpBin    := 0
  otpVal    := 0
  otpStr    := Vector.replicate 3 0
  otpCnt    := 0
  engine    := .idle
  sha1Work  := none
  usha0Work := none
  inputs    := inputs
  reply     := .none
  draws     := draws
  unobserved := []

/-- The machine right after reset: the default platform (log 1), memory with nothing listed (log 2), no event pending. -/
def State.reset : State := .resetWith .default [] [] 0

end Sys2Proof.Machine
end

