-- ==== Sys2Proof/Machine/Flags.lean ====
section
/-! DEFINITION. STATUS, CTRL and the interrupt output (spec/10_state.md R35 to R37, spec/60_exceptions.md R240 to R249). -/

namespace Sys2Proof.Machine

/-- The eight bits of an error code (R243). -/
def ErrCode.bits : ErrCode → BitVec 8
  | .eNone    => 0x00
  | .eIllegal => 0x01
  | .eLen     => 0x02
  | .eRange   => 0x03
  | .eBus     => 0x04
  | .eDigits  => 0x05
  | .eStep    => 0x06

/-- STATUS.BUSY: the engine phase (R36, R50). -/
def State.busy (s : State) : Bool :=
  match s.engine with
  | .idle => false
  | .busy _ _ => true

/-- STATUS as the host reads it (R32): LASTOP 23:16, ERRCODE 15:8, OVR 3, ERR 2, DONE 1, BUSY 0, the rest 0. -/
def State.statusWord (s : State) : Word32 :=
  (0#8 ++ s.status.lastop ++ s.status.errcode.bits ++ 0#4 ++ BitVec.ofBool s.status.ovr ++ BitVec.ofBool s.status.err
    ++ BitVec.ofBool s.status.done ++ BitVec.ofBool s.busy : BitVec 32)

/-- CTRL as the host reads it (R35). -/
def State.ctrlWord (s : State) : Word32 := (0#31 ++ BitVec.ofBool s.ie : BitVec 32)

/-- A host write of `v` to STATUS (R37): each W1C bit that is 1 in `v` is cleared; ERR takes ERRCODE with it. -/
def Status.clearBits (v : Word32) (t : Status) : Status where
  done    := t.done && !v.getLsbD 1
  err     := t.err && !v.getLsbD 2
  ovr     := t.ovr && !v.getLsbD 3
  errcode := if v.getLsbD 2 then .eNone else t.errcode
  lastop  := t.lastop

/-- The flags at acceptance of `v` (R240): DONE, ERR, ERRCODE cleared, LASTOP = v[7:0], OVR kept. -/
def Status.accepted (v : Word32) (t : Status) : Status :=
  { t with done := false, err := false, errcode := .eNone, lastop := v.extractLsb' 0 8 }

/-- The flags at the completion of a command that failed (R242, R247). -/
def Status.failed (e : ErrCode) (t : Status) : Status := { t with done := true, err := true, errcode := e }

/-- The flags at the completion of a command that succeeded (R242, R248: ERR = 0 and ERRCODE = 0x00, as acceptance left
them). -/
def Status.succeeded (t : Status) : Status := { t with done := true, err := false, errcode := .eNone }

/-- OVR set by a dropped write (R42, R241). -/
def Status.overrun (t : Status) : Status := { t with ovr := true }

/-- The interrupt output: `IRQ = CTRL.IE ∧ STATUS.DONE` (R249). -/
def State.irq (s : State) : Bool := s.ie && s.status.done

end Sys2Proof.Machine
end

