-- ==== Sys2Proof/Machine/Memory.lean ====
section
/-! DEFINITION. Operand memory (spec/20_memory.md R70 to R74): a map from 64-bit addresses to octets, held in one
canonical form. The core only reads it; platform agents write it. -/

namespace Sys2Proof.Machine

/-- What a byte nothing has written reads as (DESIGN CHOICE, log 2: the spec gives memory no initial contents). -/
def Memory.unlisted : Byte := 0

/-- The size of the operand address space (R70). -/
def addressSpace : Nat := 2 ^ 64

/-- Canonical from `lo` on: addresses strictly rising, inside the address space, no byte equal to `unlisted`. -/
def Memory.wfFrom : Nat → Memory → Bool
  | _, [] => true
  | lo, (a, b) :: m =>
    decide (lo ≤ a) && decide (a < addressSpace) && decide (b ≠ Memory.unlisted) && Memory.wfFrom (a + 1) m

/-- The canonical form of a memory. -/
def Memory.wf (m : Memory) : Bool := Memory.wfFrom 0 m

/-- `Mem(a)` (R71). -/
def Memory.read : Memory → Nat → Byte
  | [], _ => Memory.unlisted
  | (k, b) :: m, a => if a = k then b else Memory.read m a

/-- A platform agent writes one octet (R71, R260 MemWrite); the form stays canonical. -/
def Memory.write : Memory → Nat → Byte → Memory
  | [], a, b => if b = Memory.unlisted then [] else [(a, b)]
  | (k, v) :: m, a, b =>
    if a < k then if b = Memory.unlisted then (k, v) :: m else (a, b) :: (k, v) :: m
    else if a = k then if b = Memory.unlisted then m else (a, b) :: m
    else (k, v) :: Memory.write m a b

/-- `bytes(base, n)` (R72). -/
def Memory.bytes (m : Memory) (base n : Nat) : Bytes := (List.range n).map fun i => m.read (base + i)

/-- Whether an address lies in one of the ranges. -/
def inRanges (rs : List AddrRange) (a : Nat) : Bool := rs.any fun r => decide (r.lo ≤ a) && decide (a < r.hi)

/-- P_MEM_READABLE(a) (R71). -/
def memReadable (c : Config) (a : Nat) : Bool := !inRanges c.unreadable a

/-- Whether an address lies in the region. -/
def Region.contains (r : Region) (a : Nat) : Bool := decide (r.base ≤ a) && decide (a < r.base + r.len)

/-- Whether the region wraps past the top of the address space (R74): an empty one never does. -/
def Region.wraps (r : Region) : Bool := decide (0 < r.len) && decide (addressSpace < r.base + r.len)

/-- The lowest address of the region that lies in the range, if any. -/
def rangeLowestIn (q : AddrRange) (r : Region) : Option Nat :=
  if max q.lo r.base < min q.hi (r.base + r.len) then some (max q.lo r.base) else none

/-- The lower of two addresses that may be absent. -/
def lower : Option Nat → Option Nat → Option Nat
  | none, y => y
  | some x, none => some x
  | some x, some y => some (min x y)

/-- The lowest address of the region that lies in one of the ranges: `min(bad)` of R246, when the ranges are the
unreadable ones. It walks the ranges, never the region's up to 2^61 addresses. -/
def lowestIn : List AddrRange → Region → Option Nat
  | [], _ => none
  | q :: qs, r => lower (rangeLowestIn q r) (lowestIn qs r)

/-- The octets of a command's region; none for a region it does not have. -/
def Memory.region (m : Memory) : Option Region → Bytes
  | none => []
  | some r => m.bytes r.base r.len

end Sys2Proof.Machine
end

