-- ==== Sys2Proof/Machine/Operands.lean ====
section
/-! DEFINITION. Operands and their validation: the 64-bit operands (spec/30_encoding.md R93), the snapshot
(spec/10_state.md R50), the regions a command reads (spec/20_memory.md R73), and the nine checks in their order
(spec/60_exceptions.md R243 to R246). -/

namespace Sys2Proof.Machine

/-- `OP64(N) = REG[N_HI] : REG[N_LO]` (R93). -/
def op64 (hi lo : Word32) : Word64 := hi ++ lo

/-- The snapshot acceptance takes of the operand registers (R50, R240). -/
def State.snapshot (s : State) (cmd : Word32) : Snapshot where
  cmd    := cmd
  src    := op64 s.operands.srcHi s.operands.srcLo
  len    := op64 s.operands.lenHi s.operands.lenLo
  key    := op64 s.operands.keyHi s.operands.keyLo
  klen   := op64 s.operands.klenHi s.operands.klenLo
  ctr    := op64 s.operands.ctrHi s.operands.ctrLo
  time   := op64 s.operands.timeHi s.operands.timeLo
  step   := op64 s.operands.stepHi s.operands.stepLo
  digits := s.digits
  h      := s.h

/-- MAX_LEN, the largest message or key length in octets (R6, R121). -/
def maxLen : Nat := 2 ^ 61 - 1

/-- The largest data length of HMAC, whose inner hash also takes a 64-octet key block (R194). -/
def hmacMaxLen : Nat := 2 ^ 61 - 65

/-- The error a command ends with; only E_BUS carries an address (R12, R243). -/
inductive CmdError where
  | illegal
  | len
  | range
  | bus (faddr : Word64)
  | digits
  | step
deriving DecidableEq, Repr

/-- The code STATUS.ERRCODE takes (R243). -/
def CmdError.code : CmdError → ErrCode
  | .illegal => .eIllegal
  | .len     => .eLen
  | .range   => .eRange
  | .bus _   => .eBus
  | .digits  => .eDigits
  | .step    => .eStep

/-- The key region `[snap.key, snap.key + snap.klen)` (R73). -/
def Snapshot.keyRegion (sn : Snapshot) : Region := ⟨sn.key.toNat, sn.klen.toNat⟩

/-- The data region `[snap.src, snap.src + n)` (R73). -/
def Snapshot.dataRegion (sn : Snapshot) (n : Nat) : Region := ⟨sn.src.toNat, n⟩

/-- R245's table; n_data is R73's and R94's. -/
def checksOf (i : Instr) (sn : Snapshot) : Checks :=
  match i with
  | .sha1Init    => {}
  | .sha1Block   => { data := some (sn.dataRegion 64) }
  | .sha1        => { lenMax := some maxLen, data := some (sn.dataRegion sn.len.toNat) }
  | .usha0       => { lenMax := some maxLen, data := some (sn.dataRegion sn.len.toNat) }
  | .hmacIpad    => { klen := true, key := some sn.keyRegion }
  | .hmacOpad    => { klen := true, key := some sn.keyRegion }
  | .hmac        => { klen := true, lenMax := some hmacMaxLen, key := some sn.keyRegion,
                      data := some (sn.dataRegion sn.len.toNat) }
  | .totpCounter => { step := true }
  | .otpTrunc    => { digits := true, data := some (sn.dataRegion 20) }
  | .hotp        => { digits := true, klen := true, key := some sn.keyRegion }
  | .totp        => { digits := true, step := true, klen := true, key := some sn.keyRegion }

/-- Check 2 (R214): E_DIGITS unless 1 <= d <= 10. -/
def digitsCheck (k : Checks) (sn : Snapshot) : Option CmdError :=
  if k.digits = true ∧ ¬ (1 ≤ sn.digits.toNat ∧ sn.digits.toNat ≤ 10) then some .digits else none

/-- Check 3 (R211): E_STEP when STEP = 0. -/
def stepCheck (k : Checks) (sn : Snapshot) : Option CmdError :=
  if k.step = true ∧ sn.step = 0 then some .step else none

/-- Check 4 (R194): E_LEN on KLEN. -/
def klenCheck (k : Checks) (sn : Snapshot) : Option CmdError :=
  if k.klen = true ∧ maxLen < sn.klen.toNat then some .len else none

/-- Check 5 (R121, R168, R194): E_LEN on LEN. -/
def lenCheck (k : Checks) (sn : Snapshot) : Option CmdError :=
  match k.lenMax with
  | none => none
  | some n => if n < sn.len.toNat then some .len else none

/-- Checks 6 and 7 (R74): E_RANGE. -/
def rangeCheck : Option Region → Option CmdError
  | none => none
  | some r => if r.wraps then some .range else none

/-- Checks 8 and 9 (R246): E_BUS at the lowest unreadable address. -/
def busCheck (c : Config) : Option Region → Option CmdError
  | none => none
  | some r =>
    match lowestIn c.unreadable r with
    | none => none
    | some a => some (.bus (BitVec.ofNat 64 a))

/-- Validation: the first failing check of 2 to 9, in R244's order (check 1 is the decoder's). -/
def validate (c : Config) (k : Checks) (sn : Snapshot) : Option CmdError :=
  [digitsCheck k sn, stepCheck k sn, klenCheck k sn, lenCheck k sn,
   rangeCheck k.key, rangeCheck k.data, busCheck c k.key, busCheck c k.data].findSome? id

/-- The errors the command can raise (R243 "raised by", R245), with `fa` for E_BUS. -/
def possibleErrors (k : Checks) (fa : Word64) : List CmdError :=
  (if k.digits then [.digits] else []) ++ (if k.step then [.step] else [])
    ++ (if k.klen || k.lenMax.isSome then [.len] else [])
    ++ (if k.key.isSome || k.data.isSome then [.range, .bus fa] else [])

/-- Whether an address lies in an operand region (R73, R82 item 3). -/
def Checks.reads (k : Checks) (a : Nat) : Bool :=
  (match k.key with | none => false | some r => r.contains a)
    || (match k.data with | none => false | some r => r.contains a)

/-- Whether an operand region meets memory with read side effects (R78). -/
def Checks.meetsSideEffects (c : Config) (k : Checks) : Bool :=
  (match k.key with | none => false | some r => (lowestIn c.readSideEffects r).isSome)
    || (match k.data with | none => false | some r => (lowestIn c.readSideEffects r).isSome)

end Sys2Proof.Machine
end

