-- ==== Sys2Proof/Machine/Registers.lean ====
section
/-! DEFINITION. The register map of the MMIO window as one table (spec/10_state.md R31 to R33), and which register a host
access names. -/

namespace Sys2Proof.Machine

/-- The registers of R32 by name; a reserved offset has none. -/
inductive Reg where
  | id | ctrl | status | cmd
  | srcLo | srcHi | lenLo | lenHi | keyLo | keyHi | klenLo | klenHi
  | ctrLo | ctrHi | timeLo | timeHi | stepLo | stepHi
  | digits | faddrLo | faddrHi
  | h (k : Fin 5)
  | res (k : Fin 16)
  | otpBin | otpVal
  | otpStr (k : Fin 3)
  | otpCntLo | otpCntHi
deriving DecidableEq, Repr

/-- R32's offset column. -/
def Reg.offset : Reg → Nat
  | .id => 0x000
  | .ctrl => 0x004
  | .status => 0x008
  | .cmd => 0x00C
  | .srcLo => 0x010
  | .srcHi => 0x014
  | .lenLo => 0x018
  | .lenHi => 0x01C
  | .keyLo => 0x020
  | .keyHi => 0x024
  | .klenLo => 0x028
  | .klenHi => 0x02C
  | .ctrLo => 0x030
  | .ctrHi => 0x034
  | .timeLo => 0x038
  | .timeHi => 0x03C
  | .stepLo => 0x040
  | .stepHi => 0x044
  | .digits => 0x048
  | .faddrLo => 0x050
  | .faddrHi => 0x054
  | .h k => 0x060 + 4 * k.val
  | .res k => 0x080 + 4 * k.val
  | .otpBin => 0x0C0
  | .otpVal => 0x0C4
  | .otpStr k => 0x0C8 + 4 * k.val
  | .otpCntLo => 0x0D4
  | .otpCntHi => 0x0D8

/-- The registers of R32 below H0. -/
def Reg.lowRegs : List Reg :=
  [.id, .ctrl, .status, .cmd, .srcLo, .srcHi, .lenLo, .lenHi, .keyLo, .keyHi, .klenLo, .klenHi, .ctrLo, .ctrHi, .timeLo,
    .timeHi, .stepLo, .stepHi, .digits, .faddrLo, .faddrHi]

/-- The registers of R32 from OTP_BIN on. -/
def Reg.otpRegs : List Reg := [.otpBin, .otpVal, .otpStr 0, .otpStr 1, .otpStr 2, .otpCntLo, .otpCntHi]

/-- Every register of R32, in the order of its table. -/
def Reg.all : List Reg := Reg.lowRegs ++ (List.finRange 5).map Reg.h ++ (List.finRange 16).map Reg.res ++ Reg.otpRegs

/-- The register at an offset of the window; none at a reserved offset (R33). -/
def regAt (off : Nat) : Option Reg := Reg.all.find? fun r => r.offset == off

/-- The size of the window in bytes (R31). -/
def windowSize : Nat := 0x100

/-- The offset of a legal access: 32 bits wide, inside the window, at a multiple of 4 (R31). -/
def legalOffset (c : Config) (addr : Nat) (size : AccessSize) : Option Nat :=
  if size = .word ∧ c.mmioBase ≤ addr ∧ addr < c.mmioBase + windowSize ∧ (addr - c.mmioBase) % 4 = 0 then
    some (addr - c.mmioBase)
  else none

/-- The register a host access names: none for an illegal access or a reserved offset. -/
def accessed (c : Config) (addr : Nat) (size : AccessSize) : Option Reg := (legalOffset c addr size).bind regAt

end Sys2Proof.Machine
end

