-- ==== Sys2Proof/Machine/Race.lean ====
section
/-! DEFINITION. Platform writes that race with a command (spec/20_memory.md R82, spec/70_reset_and_hazards.md R274). The window
runs from acceptance to the observed completion. Its first part, while the command is in flight, leaves a mark on the
engine; its second part is read off the schedule of events at completion, so that one draw there stands for the results
and the outcome from the moment the host can see them (log 6). -/

namespace Sys2Proof.Machine

/-- Whether a platform write to `a` hits an operand region of the command in flight (R82 item 3). An illegal word has
no region (R245). -/
def inFlightReads (sn : Snapshot) (a : Nat) : Bool :=
  match decode sn.cmd with
  | none => false
  | some i => (checksOf i sn).reads a

/-- The engine after a platform write to `a`: racy once an operand byte is hit. -/
def Engine.afterWrite (a : Nat) : Engine → Engine
  | .idle => .idle
  | .busy sn racy => .busy sn (racy || inFlightReads sn a)

/-- MemWrite (R260): a platform agent writes one octet of operand memory (R71). -/
def State.memWrite (a : Word64) (b : Byte) (s : State) : State :=
  { s with mem := s.mem.write a.toNat b, engine := s.engine.afterWrite a.toNat }

/-- What decides whether a host access observes completion: BUSY, DONE and IE (R82 item 4, R249). -/
structure Watch where
  busy : Bool
  done : Bool
  ie   : Bool
deriving DecidableEq, Repr

/-- The three bits of a state. -/
def State.watch (s : State) : Watch := ⟨s.busy, s.status.done, s.ie⟩

/-- STATUS read with these bits "returns STATUS.BUSY = 0 or STATUS.DONE = 1" (R82 item 4). -/
def Watch.showsCompletion (w : Watch) : Bool := !w.busy || w.done

/-- The bits after an event (R35, R37, R240, R242, R249); a reset ends every window and is looked at on its own. -/
def Watch.after (c : Config) (e : Event) (w : Watch) : Watch :=
  match e with
  | .hostWrite addr size v =>
    match accessed c addr size with
    | some .ctrl => { w with ie := v.getLsbD 0 }
    | some .status => { w with done := w.done && !v.getLsbD 1 }
    | some .cmd => if w.busy then w else { w with busy := true, done := false }
    | _ => w
  | .complete => if w.busy then { w with busy := false, done := true } else w
  | .hostRead _ _ | .hostIrq | .memWrite _ _ | .reset => w

/-- Whether an event lets the host observe completion (R82 item 4; log 21). -/
def Watch.observes (c : Config) (e : Event) (w : Watch) : Bool :=
  match e with
  | .hostRead addr size => accessed c addr size == some .status && w.showsCompletion
  | .hostIrq => w.ie && w.done
  | .hostWrite _ _ _ | .complete | .memWrite _ _ | .reset => false

/-- Whether a scheduled platform write hits an operand region of `k` before the host observes completion, and before a
reset (R274: "to the observed completion"). -/
def writeAhead (c : Config) (k : Checks) (w : Watch) : List Event → Bool
  | [] => false
  | e :: rest =>
    match e with
    | .memWrite a _ => k.reads a.toNat || writeAhead c k w rest
    | .reset => false
    | .hostWrite _ _ _ | .hostRead _ _ | .hostIrq | .complete =>
      !w.observes c e && writeAhead c k (w.after c e) rest

/-- Whether a command that completes in this state is still raced by a write to come: completion sets DONE and clears BUSY
(R242). -/
def State.racesAhead (k : Checks) (s : State) : Bool := writeAhead s.config k ⟨false, true, s.ie⟩ s.inputs

end Sys2Proof.Machine
end

