-- ==== Sys2Proof/Machine/Ops.lean ====
section
/-! DEFINITION. The named operations of the command lifecycle (spec/60_exceptions.md R240 to R248): acceptance,
the dropped write, the commit, completion with an error (this hardware's "exception": reported in STATUS, R252) and with
success, and the draws that stand for what the spec leaves to any value. -/

namespace Sys2Proof.Machine

/-- Acceptance of the command word `v` (R240). -/
def State.accept (v : Word32) (s : State) : State :=
  { s with status := s.status.accepted v, engine := .busy (s.snapshot v) false }

/-- A write dropped because the engine is busy: only OVR changes (R42, R241). -/
def State.dropWrite (s : State) : State := { s with status := s.status.overrun }

/-- The OTP registers OTP_BIN, OTP_VAL, OTP_STR0..2 (R94's "OTP"). -/
structure OtpRegs where
  bin : Word32
  val : Word32
  str : Vector Word32 3
deriving DecidableEq, Repr

/-- `commit { ... }` (R12): the registers a command writes, each at most once; `none` where it does not write. -/
structure Commit where
  h   : Option Sha1State := none
  res : Option (Vector Word32 16) := none
  otp : Option OtpRegs := none
  cnt : Option Word64 := none
deriving DecidableEq, Repr

/-- Apply a commit as one update; a register it does not list keeps its value (R242). -/
def State.commit (c : Commit) (s : State) : State :=
  { s with
    h      := c.h.getD s.h
    res    := c.res.getD s.res
    otpBin := (c.otp.map (·.bin)).getD s.otpBin
    otpVal := (c.otp.map (·.val)).getD s.otpVal
    otpStr := (c.otp.map (·.str)).getD s.otpStr
    otpCnt := c.cnt.getD s.otpCnt }

/-! Draws. One draw number serves one completion or one read; the slots keep its values apart. -/

/-- A free five-word state, in slots `k .. k+4`. -/
def drawSha1State (n k : Nat) : Sha1State :=
  ⟨Config.freeWord32 n k, Config.freeWord32 n (k + 1), Config.freeWord32 n (k + 2), Config.freeWord32 n (k + 3),
   Config.freeWord32 n (k + 4)⟩

/-- The residue of the SHA-1 working state (R282: "its residue after a command is unspecified"). -/
def drawSha1Work (n : Nat) : Sha1Work where
  w    := Vector.ofFn fun t : Fin 80 => Config.freeWord32 n (100 + t.val)
  vars := ⟨Config.freeWord32 n 200, Config.freeWord32 n 201, Config.freeWord32 n 202, Config.freeWord32 n 203,
           Config.freeWord32 n 204⟩
  h    := drawSha1State n 210

/-- The residue of the USHA0 working state (R282). -/
def drawUsha0Work (n : Nat) : Usha0Work where
  e := Vector.ofFn fun j : Fin 48 => Config.freeWord64 n (100 + j.val)
  x := Config.freeWords64 n
  s := Vector.ofFn fun j : Fin 32 => Config.freeWord64 n (200 + j.val)

/-- A free result bank. -/
def drawRes (n : Nat) : Vector Word32 16 := Vector.ofFn fun k : Fin 16 => Config.freeWord32 n (10 + k.val)

/-- Free OTP registers; OTP_BIN bit 31 stays 0, which R32 and R44 fix (log 12). -/
def drawOtp (n : Nat) : OtpRegs where
  bin := (Config.freeWord31 n).setWidth 32
  val := Config.freeWord32 n 31
  str := Vector.ofFn fun k : Fin 3 => Config.freeWord32 n (32 + k.val)

/-- Free values for the registers a commit writes, and for no others (R82 item 3, R274, R78). -/
def Commit.drawn (n : Nat) (c : Commit) : Commit where
  h   := c.h.map fun _ => drawSha1State n 0
  res := c.res.map fun _ => drawRes n
  otp := c.otp.map fun _ => drawOtp n
  cnt := c.cnt.map fun _ => Config.freeWord64 n 0

/-- The outcome of a raced command: success or any error the command can have, freely (R82 item 3, R274, log 6). -/
def drawOutcome (n : Nat) (k : Checks) : Option CmdError :=
  let all : List (Option CmdError) := none :: (possibleErrors k (Config.freeWord64 n 1)).map some
  all.getD (Config.freeChoice n % all.length) none

/-! Completion. -/

/-- What every completion does (R242, R53): the engine goes idle, and the working state is left with a free residue. -/
def State.settle (s : State) : State :=
  { s with
    engine    := .idle
    sha1Work  := some (drawSha1Work s.draws)
    usha0Work := some (drawUsha0Work s.draws)
    draws     := s.draws + 1 }

/-- FADDR after an error: written only on E_BUS (R41, R246). -/
def CmdError.faddrAfter (e : CmdError) (old : Word64) : Word64 :=
  match e with
  | .bus a => a
  | _ => old

/-- Completion with an error (R242, R247): STATUS, and FADDR on E_BUS; no result register. -/
def State.fail (e : CmdError) (s : State) : State :=
  { s.settle with status := s.status.failed e.code, faddr := e.faddrAfter s.faddr }

/-- Completion with success (R242, R248): the commit as one update, and STATUS. -/
def State.succeed (c : Commit) (s : State) : State :=
  { (s.commit c).settle with status := s.status.succeeded }

/-- A completion enters the commands the host has yet to observe (R274, log 6). -/
def State.noted (i : Option Instr) (k : Checks) (raced : Bool) (s : State) : State :=
  { s with unobserved := s.unobserved ++ [⟨i, k, s.status.errcode, raced⟩] }

/-- The outcome of a command: its validation (R242), or a draw when it is raced (R82 item 3, R274). -/
def State.outcome (k : Checks) (sn : Snapshot) (raced : Bool) (s : State) : Option CmdError :=
  if raced then drawOutcome s.draws k else validate s.config k sn

/-- What a successful command commits: its results, or free values when it is raced (R82 item 3, R274) or an operand
region has read side effects (R78, log 7). -/
def State.results (k : Checks) (raced : Bool) (c : Commit) (s : State) : Commit :=
  if raced || k.meetsSideEffects s.config then c.drawn s.draws else c

/-- The completion of command `i` with snapshot `sn` (R242). `result` is the command's rule: from the snapshot, the key
octets and the data octets to what it commits. It is raced by a write since its acceptance, or by one still to come before
the host observes this completion (R274). -/
def State.completeWith (i : Instr) (sn : Snapshot) (racy : Bool) (result : Snapshot → Bytes → Bytes → Commit)
    (s : State) : State :=
  let k := checksOf i sn
  let raced := racy || s.racesAhead k
  match s.outcome k sn raced with
  | some e => (s.fail e).noted (some i) k raced
  | none => (s.succeed (s.results k raced (result sn (s.mem.region k.key) (s.mem.region k.data)))).noted (some i) k raced

/-- The state with a command in flight: an idle engine first accepts the command's word, a busy one has its command
(R49: "Each command is one step from the host's point of view, split into acceptance and completion"; log 11). -/
def State.begun (v : Word32) (s : State) : State :=
  match s.engine with
  | .idle => s.accept v
  | .busy _ _ => s

/-- The command in flight in `s.begun v`: its snapshot, and whether it is racy. -/
def State.inFlight (v : Word32) (s : State) : Snapshot × Bool :=
  match s.engine with
  | .idle => (s.snapshot v, false)
  | .busy sn racy => (sn, racy)

/-- Run command `i` to its completion. -/
def State.perform (i : Instr) (result : Snapshot → Bytes → Bytes → Commit) (s : State) :
    Host.Outcome State Fault Refusal :=
  .next ((s.begun (encode i)).completeWith i (s.inFlight (encode i)).1 (s.inFlight (encode i)).2 result)

end Sys2Proof.Machine
end

