-- ==== Sys2Proof/Machine/Sha1.lean ====
section
/-! DEFINITION. The SHA-1 core (spec/40_sha1.md): message_schedule, round_function, state_update and padding as pure
functions (R110 to R121), and the commands SHA1_INIT, SHA1_BLOCK and SHA1 (R122 to R124). -/

namespace Sys2Proof.Machine

/-- `z = (55 − |M|) mod 64`, the zero octets of the padding (R112). -/
def sha1PadZeros (n : Nat) : Nat := (119 - n % 64) % 64

/-- `sha1_pad(M) = M || 0x80 || 0x00^z || be8(8·|M|)` (R112). -/
def sha1Pad (M : Bytes) : Bytes :=
  M ++ [0x80] ++ zeros (sha1PadZeros M.length) ++ be8 (BitVec.ofNat 64 (8 * M.length))

/-- `W[t] = be_u32(B[4t .. 4t+4])` for t = 0..15 (R113). -/
def sha1Parse (B : Bytes) : List Word32 := (List.range 16).map fun t => beU32 B (4 * t)

/-- `W[i] = rotl1(W[i−3] ⊕ W[i−8] ⊕ W[i−14] ⊕ W[i−16])` (R114), for i the number of words so far. -/
def sha1NextWord (W : List Word32) : Word32 :=
  (W.getD (W.length - 3) 0 ^^^ W.getD (W.length - 8) 0 ^^^ W.getD (W.length - 14) 0
    ^^^ W.getD (W.length - 16) 0).rotateLeft 1

/-- Append `n` schedule words (R114). -/
def sha1Extend : Nat → List Word32 → List Word32
  | 0, W => W
  | n + 1, W => sha1Extend n (W ++ [sha1NextWord W])

/-- `sha1_schedule(B) = W[0..79]` (R113, R114). -/
def sha1Schedule (B : Bytes) : List Word32 := sha1Extend 64 (sha1Parse B)

/-- The selection of f by round index (R115). -/
def sha1F (t : Nat) (b c d : Word32) : Word32 :=
  if t ≤ 19 then (b &&& c) ||| (~~~b &&& d)
  else if t ≤ 39 then b ^^^ c ^^^ d
  else if t ≤ 59 then (b &&& c) ||| (b &&& d) ||| (c &&& d)
  else b ^^^ c ^^^ d

/-- The selection of k by round index (R115). -/
def sha1K (t : Nat) : Word32 :=
  if t ≤ 19 then 0x5A827999
  else if t ≤ 39 then 0x6ED9EBA1
  else if t ≤ 59 then 0x8F1BBCDC
  else 0xCA62C1D6

/-- One round (R116): all five assignments use the values from before the round. -/
def sha1Round (t : Nat) (v : RoundVars) (w : Word32) : RoundVars where
  a := v.a.rotateLeft 5 + sha1F t v.b v.c v.d + v.e + w + sha1K t
  b := v.a
  c := v.b.rotateLeft 30
  d := v.c
  e := v.d

/-- "Initialize (a,b,c,d,e) = (H0..H4)" (R117). -/
def Sha1State.vars (h : Sha1State) : RoundVars := ⟨h.h0, h.h1, h.h2, h.h3, h.h4⟩

/-- Rounds 0 to n − 1 in order (R117). -/
def sha1Rounds (W : List Word32) : Nat → RoundVars → RoundVars
  | 0, v => v
  | n + 1, v => sha1Round n (sha1Rounds W n v) (W.getD n 0)

/-- state_update (R118). -/
def sha1AddBack (h : Sha1State) (v : RoundVars) : Sha1State :=
  ⟨h.h0 + v.a, h.h1 + v.b, h.h2 + v.c, h.h3 + v.d, h.h4 + v.e⟩

/-- `sha1_compress(H, B)` (R119). -/
def sha1Compress (h : Sha1State) (B : Bytes) : Sha1State :=
  sha1AddBack h (sha1Rounds (sha1Schedule B) 80 h.vars)

/-- Compress the first `n` 64-octet blocks of `P` in order (R120). -/
def sha1Blocks (P : Bytes) : Nat → Sha1State → Sha1State
  | 0, h => h
  | n + 1, h => sha1Compress (sha1Blocks P n h) (blockAt 64 P n)

/-- `sha1_state(M)` (R120). -/
def sha1State (M : Bytes) : Sha1State := sha1Blocks (sha1Pad M) ((sha1Pad M).length / 64) .iv

/-- "concatenation of H0..H4 in big-endian order" (R120). -/
def Sha1State.digest (h : Sha1State) : Bytes := be4 h.h0 ++ be4 h.h1 ++ be4 h.h2 ++ be4 h.h3 ++ be4 h.h4

/-- `sha1(M)` (R120). -/
def sha1 (M : Bytes) : Bytes := (sha1State M).digest

/-- SHA1_INIT (R122): `commit { H0..H4 <- IV }`. -/
def execSha1Init (s : State) : Host.Outcome State Fault Refusal :=
  s.perform .sha1Init fun _ _ _ => { h := some .iv }

/-- SHA1_BLOCK (R123): `commit { (H0..H4) <- sha1_compress(snap.h, B) }`. -/
def execSha1Block (s : State) : Host.Outcome State Fault Refusal :=
  s.perform .sha1Block fun sn _ B => { h := some (sha1Compress sn.h B) }

/-- SHA1 (R124): `commit { (H0..H4) <- Hf;  RES <- pack(sha1(M)) }`. -/
def execSha1 (s : State) : Host.Outcome State Fault Refusal :=
  s.perform .sha1 fun _ _ M => { h := some (sha1State M), res := some (pack (sha1 M)) }

end Sys2Proof.Machine
end

