-- ==== Sys2Proof/Machine/Hmac.lean ====
section
/-! DEFINITION. The HMAC unit (spec/42_hmac.md): key normalisation, the key-pad XOR engine and HMAC-SHA1 (R190 to R194),
and the commands HMAC_IPAD, HMAC_OPAD and HMAC (R195 to R197). -/

namespace Sys2Proof.Machine

/-- `hmac_keynorm(K)`, the 64-octet key block (R190). -/
def hmacKeynorm (K : Bytes) : Bytes :=
  if 64 < K.length then sha1 K ++ zeros 44
  else if K.length = 64 then K
  else K ++ zeros (64 - K.length)

/-- `hmac_padxor(K', p)` (R191). -/
def hmacPadxor (K' : Bytes) (p : Byte) : Bytes := K'.map fun k => k ^^^ p

/-- The inner pad octet (R192). -/
def innerPad : Byte := 0x36

/-- The outer pad octet (R192). -/
def outerPad : Byte := 0x5C

/-- `hmac(K, D)` (R193). -/
def hmac (K D : Bytes) : Bytes :=
  sha1 (hmacPadxor (hmacKeynorm K) outerPad ++ sha1 (hmacPadxor (hmacKeynorm K) innerPad ++ D))

/-- HMAC_IPAD (R195): `commit { RES <- pack(hmac_padxor(K', 0x36)) }`. -/
def execHmacIpad (s : State) : Host.Outcome State Fault Refusal :=
  s.perform .hmacIpad fun _ K _ => { res := some (pack (hmacPadxor (hmacKeynorm K) innerPad)) }

/-- HMAC_OPAD (R196): `commit { RES <- pack(hmac_padxor(K', 0x5C)) }`. -/
def execHmacOpad (s : State) : Host.Outcome State Fault Refusal :=
  s.perform .hmacOpad fun _ K _ => { res := some (pack (hmacPadxor (hmacKeynorm K) outerPad)) }

/-- HMAC (R197): `commit { RES <- pack(hmac(K, D)) }`. -/
def execHmac (s : State) : Host.Outcome State Fault Refusal :=
  s.perform .hmac fun _ K D => { res := some (pack (hmac K D)) }

end Sys2Proof.Machine
end

