-- ==== Sys2Proof/Machine/Otp.lean ====
section
/-! DEFINITION. The HOTP/TOTP unit (spec/43_otp.md): counter serialisation, time step, dynamic truncation and decimal
reduction (R210 to R218), and the commands TOTP_COUNTER, OTP_TRUNC, HOTP and TOTP (R219 to R222). -/

namespace Sys2Proof.Machine

/-- `otp_ser(C) = be8(C)` (R210). -/
def otpSer (C : Word64) : Bytes := be8 C

/-- `otp_step(t, x) = floor(t / x)`, unsigned, for x > 0 (R211; x = 0 is refused with E_STEP before it is used). -/
def otpStep (t x : Word64) : Word64 := BitVec.ofNat 64 (t.toNat / x.toNat)

/-- `o = H[19] ∧ 0x0F` (R212). -/
def otpOffset (H : Bytes) : Nat := (byteAt H 19 &&& 0x0F).toNat

/-- `otp_trunc(H)`: the four octets at o, big-endian, the top bit cleared (R213). -/
def otpTrunc (H : Bytes) : Word32 :=
  (byteAt H (otpOffset H) &&& 0x7F) ++ byteAt H (otpOffset H + 1) ++ byteAt H (otpOffset H + 2)
    ++ byteAt H (otpOffset H + 3)

/-- `otp_reduce(bin, d) = bin mod 10^d` (R214). -/
def otpReduce (bin d : Nat) : Nat := bin % 10 ^ d

/-- `otp_decimal(v, d)`: the d ASCII digits, most significant first (R215). -/
def otpDecimal (v d : Nat) : Bytes :=
  (List.range d).map fun k => BitVec.ofNat 8 (0x30 + v / 10 ^ (d - 1 - k) % 10)

/-- `hotp(K, C, d)` (R217). -/
def hotp (K : Bytes) (C : Word64) (d : Nat) : Bytes :=
  otpDecimal (otpReduce (otpTrunc (hmac K (otpSer C))).toNat d) d

/-- `totp(K, t, x, d) = hotp(K, otp_step(t, x), d)` (R218). -/
def totp (K : Bytes) (t x : Word64) (d : Nat) : Bytes := hotp K (otpStep t x) d

/-- OTP register write-back of (bin, d) (R216). -/
def otpWriteBack (bin : Word32) (d : Nat) : OtpRegs where
  bin := bin
  val := BitVec.ofNat 32 (otpReduce bin.toNat d)
  str := packstr (otpDecimal (otpReduce bin.toNat d) d)

/-- What HOTP and TOTP commit for moving factor C (R221, R222). -/
def otpCommit (K : Bytes) (C : Word64) (d : Nat) : Commit where
  cnt := some C
  res := some (pack (hmac K (otpSer C)))
  otp := some (otpWriteBack (otpTrunc (hmac K (otpSer C))) d)

/-- TOTP_COUNTER (R219): `commit { OTP_CNT <- T;  RES <- pack(otp_ser(T)) }`. -/
def execTotpCounter (s : State) : Host.Outcome State Fault Refusal :=
  s.perform .totpCounter fun sn _ _ =>
    { cnt := some (otpStep sn.time sn.step), res := some (pack (otpSer (otpStep sn.time sn.step))) }

/-- OTP_TRUNC (R220): the write-back of the 20 octets at SRC. -/
def execOtpTrunc (s : State) : Host.Outcome State Fault Refusal :=
  s.perform .otpTrunc fun sn _ H => { otp := some (otpWriteBack (otpTrunc H) sn.digits.toNat) }

/-- HOTP (R221): moving factor CTR. -/
def execHotp (s : State) : Host.Outcome State Fault Refusal :=
  s.perform .hotp fun sn K _ => otpCommit K sn.ctr sn.digits.toNat

/-- TOTP (R222): moving factor floor(TIME / STEP). -/
def execTotp (s : State) : Host.Outcome State Fault Refusal :=
  s.perform .totp fun sn K _ => otpCommit K (otpStep sn.time sn.step) sn.digits.toNat

end Sys2Proof.Machine
end

