-- ==== Sys2Proof/Machine/Usha0.lean ====
section
/-! DEFINITION. The USHA0 core (spec/41_usha0.md): padding, extender, pass_mixer and state_evolution (R150 to R168), and
the command USHA0 (R169). Every step keeps the source's order, the dead step 2 of Phase C included (R156). -/

namespace Sys2Proof.Machine

/-- The zero octets of the padding (R150), for `n` message octets and P_USHA0_ALIGNED_PAD. -/
def usha0PadZeros (alignedPad : Bool) (n : Nat) : Nat :=
  if alignedPad then 128 - (n + 8) % 128 else (128 - (n + 8) % 128) % 128

/-- `usha0_pad(M) = M || be8(n) || 0x00^z` (R150). -/
def usha0Pad (alignedPad : Bool) (M : Bytes) : Bytes :=
  M ++ be8 (BitVec.ofNat 64 M.length) ++ zeros (usha0PadZeros alignedPad M.length)

/-- `E[j]`. -/
def extAt (E : List Word64) (j : Nat) : Word64 := E.getD j 0

/-- Phase A (R153) over an array of 48 zero words (R152): E[w] = be_u64(C[8w .. 8w+8]) for w = 0..15. -/
def usha0PhaseA (C : Bytes) : List Word64 := (List.range 16).map (fun w => beU64 C (8 * w)) ++ List.replicate 32 0

/-- Phase B for one j (R154). -/
def usha0PhaseB (E : List Word64) (j : Nat) : List Word64 :=
  let E := E.set j (extAt E (j - 2) ^^^ (extAt E (j - 3)).rotateRight 9 ^^^ extAt E (j - 7)
    ^^^ (extAt E (j - 13)).rotateLeft 2)
  E.set j ((extAt E j).rotateLeft 5)

/-- Phase C steps 1 to 8 for one j, in order (R155). -/
def usha0PhaseC (E : List Word64) (j : Nat) : List Word64 :=
  let E := E.set j (extAt E j ^^^ (((extAt E (j - 15)).rotateLeft 3 &&& 0xAF421F4D) ^^^ extAt E (j - 19)))
  let E := E.set (j - 3) ((extAt E (j - 8)).rotateRight 12 &&& 0xC35BD342)
  let E := E.set (j - 7) (extAt E (j - 7) &&& ((extAt E (j - 9)).rotateRight 17 ^^^ 0x623144AF))
  let E := E.set (j - 2) ((extAt E (j - 15)).rotateRight 33 &&& 0xF3512FC1)
  let E := E.set (j - 6) (((extAt E (j - 5)).rotateRight 63 ||| 0xF3512FC1) ^^^ extAt E (j - 1))
  let E := E.set (j - 17) ((extAt E (j - 19)).rotateLeft 42 ^^^ (0xF3512FC1 &&& extAt E (j - 15)))
  let E := E.set (j - 3) ((extAt E (j - 4)).rotateLeft 27)
  E.set (j - 9) (extAt E j ^^^ extAt E (j - 5) ^^^ extAt E (j - 7))

/-- `usha0_extend(C)` (R152 to R155): Phase B for j = 16..31, then Phase C for j = 20..47. -/
def usha0Extend (C : Bytes) : List Word64 :=
  (List.range' 20 28).foldl usha0PhaseC ((List.range' 16 16).foldl usha0PhaseB (usha0PhaseA C))

/-- The extended message X: the 48 words of every chunk in order (R151, R157). -/
def usha0Extended (alignedPad : Bool) (M : Bytes) : List Word64 :=
  (List.range ((usha0Pad alignedPad M).length / 128)).flatMap fun c =>
    usha0Extend (blockAt 128 (usha0Pad alignedPad M) c)

/-- `S[i mod 32]`. -/
def mixAt (S : List Word64) (i : Nat) : Word64 := S.getD (i % 32) 0

/-- `S[i mod 32] ← v`. -/
def mixPut (S : List Word64) (i : Nat) (v : Word64) : List Word64 := S.set (i % 32) v

/-- pass_mixer steps 1 to 4 (R159). -/
def usha0MixFront (S : List Word64) (i : Nat) (b : Word64) : List Word64 :=
  let S := mixPut S i (mixAt S i ^^^ b)
  let S := mixPut S (i + 5) (mixAt S (i + 5) ^^^ (mixAt S (i + 3) &&& b))
  let S := mixPut S (i + 17) (mixAt S (i + 17) &&& b)
  mixPut S (i + 8) (mixAt S (i + 8) ||| (b ^^^ (mixAt S i &&& ~~~(mixAt S (i + 18)))))

/-- pass_mixer step 5 (R160 to R163): exactly one of the branches r = 0, r in [1, 16], r in [17, 31]. -/
def usha0MixBranch (S : List Word64) (i : Nat) : List Word64 :=
  if i % 32 = 0 then mixPut S (i + 12) ((mixAt S (i + 65)).rotateRight 7)
  else if i % 32 ≤ 16 then
    let S := mixPut S i (mixAt S i + mixAt S (i + 3) + (mixAt S (i + 3) ||| mixAt S (i + 1)))
    let S := mixPut S (i + 213) (~~~(mixAt S (i + 26)))
    mixPut S (i + 46) ((mixAt S (i + 72)).rotateLeft 3)
  else
    let S := mixPut S i (mixAt S i &&& 0x53)
    mixPut S (i + 23) ((mixAt S (i + 75)).rotateLeft 5)

/-- `usha0_mix(S, i, b)`, with step 6 (R164). -/
def usha0Mix (S : List Word64) (i : Nat) (b : Word64) : List Word64 :=
  let S := usha0MixBranch (usha0MixFront S i b) i
  mixPut S i ((mixAt S i).rotateLeft 55)

/-- "Initialize S[0..31] each equal to 6" (R158). -/
def usha0Init : List Word64 := List.replicate 32 6

/-- One outer pass from position `i` on, over the rest of X (R166). -/
def usha0PassFrom (i : Nat) : List Word64 → List Word64 → List Word64
  | [], S => S
  | b :: X, S => usha0PassFrom (i + 1) X (usha0Mix S i b)

/-- `n` outer passes; i restarts at 0 on each (R166). -/
def usha0Passes (X : List Word64) : Nat → List Word64 → List Word64
  | 0, S => S
  | n + 1, S => usha0Passes X n (usha0PassFrom 0 X S)

/-- `usha0_evolve(X)`: 32 outer passes (R166). -/
def usha0Evolve (X : List Word64) : List Word64 := usha0Passes X 32 usha0Init

/-- `usha0(M)`: the big-endian encodings of S[0..3] (R167). -/
def usha0 (alignedPad : Bool) (M : Bytes) : Bytes :=
  let S := usha0Evolve (usha0Extended alignedPad M)
  be8 (mixAt S 0) ++ be8 (mixAt S 1) ++ be8 (mixAt S 2) ++ be8 (mixAt S 3)

/-- USHA0 (R169): `commit { RES <- pack(usha0(M)) }`. -/
def execUsha0 (s : State) : Host.Outcome State Fault Refusal :=
  s.perform .usha0 fun _ _ M => { res := some (pack (usha0 s.config.usha0AlignedPad M)) }

end Sys2Proof.Machine
end

