-- ==== Sys2Proof/Machine/Dispatch.lean ====
section
/-! DEFINITION. One arm per command (spec/30_encoding.md R91): its completion, as spec/60_exceptions.md R242 runs it. -/

namespace Sys2Proof.Machine

def exec (i : Instr) (s : State) : Host.Outcome State Fault Refusal :=
  match i with
  | .sha1Init => Sys2Proof.Machine.execSha1Init s
  | .sha1Block => Sys2Proof.Machine.execSha1Block s
  | .sha1 => Sys2Proof.Machine.execSha1 s
  | .usha0 => Sys2Proof.Machine.execUsha0 s
  | .hmacIpad => Sys2Proof.Machine.execHmacIpad s
  | .hmacOpad => Sys2Proof.Machine.execHmacOpad s
  | .hmac => Sys2Proof.Machine.execHmac s
  | .totpCounter => Sys2Proof.Machine.execTotpCounter s
  | .otpTrunc => Sys2Proof.Machine.execOtpTrunc s
  | .hotp => Sys2Proof.Machine.execHotp s
  | .totp => Sys2Proof.Machine.execTotp s

end Sys2Proof.Machine
end

