-- ==== Sys2Proof/Machine/Mmio.lean ====
section
/-! DEFINITION. The MMIO register window (spec/10_state.md R31 to R47): reads and writes of each register, and the host's
accesses. -/

namespace Sys2Proof.Machine

/-- The result registers of R45, which while BUSY = 1 "are internal working state". -/
def Reg.isResult : Reg → Bool
  | .h _ | .res _ | .otpBin | .otpVal | .otpStr _ | .otpCntLo | .otpCntHi | .faddrLo | .faddrHi => true
  | .id | .ctrl | .status | .cmd | .srcLo | .srcHi | .lenLo | .lenHi | .keyLo | .keyHi | .klenLo | .klenHi
  | .ctrLo | .ctrHi | .timeLo | .timeHi | .stepLo | .stepHi | .digits => false

/-- Word k of the SHA-1 state. -/
def Sha1State.get (h : Sha1State) (k : Fin 5) : Word32 :=
  match k with
  | 0 => h.h0
  | 1 => h.h1
  | 2 => h.h2
  | 3 => h.h3
  | 4 => h.h4

/-- The SHA-1 state with word k replaced. -/
def Sha1State.put (h : Sha1State) (k : Fin 5) (v : Word32) : Sha1State :=
  match k with
  | 0 => { h with h0 := v }
  | 1 => { h with h1 := v }
  | 2 => { h with h2 := v }
  | 3 => { h with h3 := v }
  | 4 => { h with h4 := v }

/-- Bits 31:0 of a 64-bit register (R32). -/
def loHalf (v : Word64) : Word32 := v.extractLsb' 0 32

/-- Bits 63:32 of a 64-bit register (R32). -/
def hiHalf (v : Word64) : Word32 := v.extractLsb' 32 32

/-- The value a register holds, as the host sees it when the read is valid (R32 to R44). -/
def State.readReg (s : State) : Reg → Word32
  | .id => s.config.coreId
  | .ctrl => s.ctrlWord
  | .status => s.statusWord
  | .cmd => 0
  | .srcLo => s.operands.srcLo
  | .srcHi => s.operands.srcHi
  | .lenLo => s.operands.lenLo
  | .lenHi => s.operands.lenHi
  | .keyLo => s.operands.keyLo
  | .keyHi => s.operands.keyHi
  | .klenLo => s.operands.klenLo
  | .klenHi => s.operands.klenHi
  | .ctrLo => s.operands.ctrLo
  | .ctrHi => s.operands.ctrHi
  | .timeLo => s.operands.timeLo
  | .timeHi => s.operands.timeHi
  | .stepLo => s.operands.stepLo
  | .stepHi => s.operands.stepHi
  | .digits => s.digits.setWidth 32
  | .faddrLo => loHalf s.faddr
  | .faddrHi => hiHalf s.faddr
  | .h k => s.h.get k
  | .res k => s.res[k]
  | .otpBin => s.otpBin
  | .otpVal => s.otpVal
  | .otpStr k => s.otpStr[k]
  | .otpCntLo => loHalf s.otpCnt
  | .otpCntHi => hiHalf s.otpCnt

/-- A host write of `v` to a register (R33 to R47). Writes to read-only registers are ignored; CMD accepts a command or,
while busy, drops it (R38); H0..H4 take a value only when idle (R42). -/
def State.writeReg (r : Reg) (v : Word32) (s : State) : State :=
  match r with
  | .ctrl => { s with ie := v.getLsbD 0 }
  | .status => { s with status := s.status.clearBits v }
  | .cmd => if s.busy then s.dropWrite else s.accept v
  | .srcLo => { s with operands := { s.operands with srcLo := v } }
  | .srcHi => { s with operands := { s.operands with srcHi := v } }
  | .lenLo => { s with operands := { s.operands with lenLo := v } }
  | .lenHi => { s with operands := { s.operands with lenHi := v } }
  | .keyLo => { s with operands := { s.operands with keyLo := v } }
  | .keyHi => { s with operands := { s.operands with keyHi := v } }
  | .klenLo => { s with operands := { s.operands with klenLo := v } }
  | .klenHi => { s with operands := { s.operands with klenHi := v } }
  | .ctrLo => { s with operands := { s.operands with ctrLo := v } }
  | .ctrHi => { s with operands := { s.operands with ctrHi := v } }
  | .timeLo => { s with operands := { s.operands with timeLo := v } }
  | .timeHi => { s with operands := { s.operands with timeHi := v } }
  | .stepLo => { s with operands := { s.operands with stepLo := v } }
  | .stepHi => { s with operands := { s.operands with stepHi := v } }
  | .digits => { s with digits := v.extractLsb' 0 8 }
  | .h k => if s.busy then s.dropWrite else { s with h := s.h.put k v }
  | .id | .faddrLo | .faddrHi | .res _ | .otpBin | .otpVal | .otpStr _ | .otpCntLo | .otpCntHi => s

/-- HostWrite (R260). An illegal access gets a bus error and changes no state (R31, log 9). -/
def State.hostWrite (addr : Nat) (size : AccessSize) (v : Word32) (s : State) : State :=
  match legalOffset s.config addr size with
  | none => { s with reply := .busError }
  | some off =>
    match regAt off with
    | none => { s with reply := .written }
    | some r => { s.writeReg r v with reply := .written }

/-- Whether a read of this register observes completion: a read of STATUS that returns BUSY = 0 or DONE = 1 (R82 item 4). -/
def State.observes (r : Reg) (s : State) : Bool := r == .status && s.watch.showsCompletion

/-- If the host has `seen` completion, no earlier command's window is open any more (R82 item 4, R274; log 21). -/
def State.observedIf (seen : Bool) (s : State) : State := { s with unobserved := if seen then [] else s.unobserved }

/-- The host looks at the interrupt output; seeing it high observes completion (R82 item 4, R249; log 21). -/
def State.hostIrq (s : State) : State :=
  { s.observedIf s.irq with reply := .irq s.irq }

/-- HostRead (R260). A result register read while busy gives a free value (R45, log 5); a reserved offset gives 0
(R33). -/
def State.hostRead (addr : Nat) (size : AccessSize) (s : State) : State :=
  match legalOffset s.config addr size with
  | none => { s with reply := .busError }
  | some off =>
    match regAt off with
    | none => { s with reply := .data 0 }
    | some r =>
      if r.isResult && s.busy then { s with reply := .data (Config.freeWord32 s.draws 0), draws := s.draws + 1 }
      else { s.observedIf (s.observes r) with reply := .data (s.readReg r) }

end Sys2Proof.Machine
end

