-- ==== Sys2Proof/Machine/Engine.lean ====
section
/-! DEFINITION. The transitions of spec/60_exceptions.md R260, each as one function of the state. `Step.lean` only
chooses which is next. -/

namespace Sys2Proof.Machine

/-- Reset (R270 to R272): every register to its reset value, a command in flight abandoned, memory and platform kept. -/
def State.applyReset (s : State) : State := .resetWith s.config s.mem s.inputs s.draws

/-- Complete (R242): the command in flight runs; an illegal word ends with E_ILLEGAL (R92). Not enabled while idle, where
nothing happens (log 4). -/
def State.complete (s : State) : Host.Outcome State Fault Refusal :=
  match s.engine with
  | .idle => .next s
  | .busy sn _ =>
    match decode sn.cmd with
    | some i => exec i s
    | none => .next ((s.fail .illegal).noted none {} false)

/-- One event of R260, or the host's look at the interrupt output. -/
def State.apply (e : Event) (s : State) : Host.Outcome State Fault Refusal :=
  match e with
  | .hostWrite addr size v => .next (s.hostWrite addr size v)
  | .hostRead addr size => .next (s.hostRead addr size)
  | .hostIrq => .next s.hostIrq
  | .complete => s.complete
  | .memWrite a b => .next (s.memWrite a b)
  | .reset => .next s.applyReset

/-- The host writes the command word `w` to an idle engine and the engine's own step comes next (log 3): the very
next step runs the word. -/
def State.placeCommand (w : Word32) (s : State) : State :=
  { s.accept w with inputs := .complete :: s.inputs }

end Sys2Proof.Machine
end

