-- ==== Sys2Proof/Machine/Step.lean ====
section
/-! DEFINITION. One step of the machine: the next scheduled event (spec/60_exceptions.md R260), or, when none is pending,
the engine's own completion (spec/70_reset_and_hazards.md R280: an accepted command is eventually completed; log 4). -/

namespace Sys2Proof.Machine

/-- One step. -/
def step (s : State) : Host.Outcome State Fault Refusal :=
  match s.inputs with
  | [] => s.complete
  | e :: rest => { s with inputs := rest }.apply e

/-- The state in which the command word `w` is in flight and the next step completes it. -/
def State.withFetchWord (s : State) (nbits w : Nat) : State :=
  s.placeCommand (BitVec.ofNat 32 (tableBits nbits w))

end Sys2Proof.Machine
end

