-- ==== Sys2Proof/Machine/HostProgram.lean ====
section
/-! DEFINITION. The host programs of spec/30_encoding.md R99 to R101: statements, pseudo-instructions and their expansions,
and the run of a program against the core, one bus transaction at a time. Not part of the hardware (92 D31): the host is
the agent that schedules the core's events. -/

namespace Sys2Proof.Machine

/-- The statements of R99. Labels are numbered, variables vK are numbered by K. -/
inductive HostStmt where
  | wr (r : Reg) (v : Word32)
  | rd (r : Reg) (k : Nat)
  | label (l : Nat)
  | bnz (k : Nat) (mask : Word32) (l : Nat)
  | beq (k : Nat) (v : Word32) (l : Nat)
  | halt
deriving DecidableEq, Repr

/-- The names of the 64-bit operands (R93). -/
inductive Operand64 where
  | src | len | key | klen | ctr | time | step
deriving DecidableEq, Repr

/-- N_LO. -/
def Operand64.lo : Operand64 → Reg
  | .src => .srcLo
  | .len => .lenLo
  | .key => .keyLo
  | .klen => .klenLo
  | .ctr => .ctrLo
  | .time => .timeLo
  | .step => .stepLo

/-- N_HI. -/
def Operand64.hi : Operand64 → Reg
  | .src => .srcHi
  | .len => .lenHi
  | .key => .keyHi
  | .klen => .klenHi
  | .ctr => .ctrHi
  | .time => .timeHi
  | .step => .stepHi

/-- A line of a program: a statement or a pseudo-instruction of R100. -/
inductive HostLine where
  | stmt (t : HostStmt)
  | wr64 (n : Operand64) (v : Word64)
  | cmd (i : Instr)
  | wait
  | ack
  | run (i : Instr)
deriving DecidableEq, Repr

/-- `cmd MNEMONIC` (R100). -/
def cmdStmts (i : Instr) : List HostStmt := [.wr .cmd (encode i)]

/-- `wait` (R100), with `fresh` for the label Lw. -/
def waitStmts (fresh : Nat) : List HostStmt := [.label fresh, .rd .status 0, .bnz 0 0x1 fresh]

/-- R100's expansions. -/
def HostLine.expand (fresh : Nat) : HostLine → List HostStmt
  | .stmt t => [t]
  | .wr64 n v => [.wr n.lo (loHalf v), .wr n.hi (hiHalf v)]
  | .cmd i => cmdStmts i
  | .wait => waitStmts fresh
  | .ack => [.wr .status 0x0000000E]
  | .run i => cmdStmts i ++ waitStmts fresh

/-- The labels a line names itself. -/
def HostLine.labels : HostLine → List Nat
  | .stmt (.label l) | .stmt (.bnz _ _ l) | .stmt (.beq _ _ l) => [l]
  | _ => []

/-- Expand the lines, each with a fresh label of its own from `fresh` on. -/
def expandFrom (fresh : Nat) : List HostLine → List HostStmt
  | [] => []
  | l :: ls => l.expand fresh ++ expandFrom (fresh + 1) ls

/-- A program as statements; its fresh labels are above every label it names. -/
def expandProgram (ls : List HostLine) : List HostStmt :=
  expandFrom ((ls.flatMap HostLine.labels).foldl max 0 + 1) ls

/-- A bus transaction (R101), offsets relative to P_MMIO_BASE. -/
inductive Txn where
  | w (off : Nat) (v : Word32)
  | r (off : Nat)
deriving DecidableEq, Repr

/-- A host program in progress: where it stands, its variables, the transactions so far (the latest first), the core. -/
structure HostRun where
  prog   : List HostStmt
  at_    : Nat
  vars   : List (Nat × Word32)
  trace  : List Txn
  halted : Bool
  core   : State
deriving DecidableEq, Repr

/-- A program at its first statement. -/
def HostRun.start (prog : List HostStmt) (core : State) : HostRun := ⟨prog, 0, [], [], false, core⟩

/-- The value of vK; a variable never assigned reads 0 (log 15). -/
def HostRun.var (p : HostRun) (k : Nat) : Word32 := (p.vars.lookup k).getD 0

/-- Have the core take event `e` as its next step. -/
def State.take (e : Event) (s : State) : State :=
  match step { s with inputs := e :: s.inputs } with
  | .next t => t
  | _ => s

/-- Go on at a label: the first of the statements that carry it where several do, and the end of the program where none
does (both the model's choice, log 15). -/
def HostRun.jump (p : HostRun) (l : Nat) : HostRun :=
  if .label l ∈ p.prog then { p with at_ := p.prog.idxOf (.label l) } else { p with halted := true }

/-- The value the core's last reply carries. -/
def State.replyData (s : State) : Word32 :=
  match s.reply with
  | .data v => v
  | _ => 0

/-- The host executes its next statement (R99, R101). -/
def HostRun.hostTurn (p : HostRun) : HostRun :=
  match p.prog[p.at_]? with
  | none | some .halt => { p with halted := true }
  | some (.label _) => { p with at_ := p.at_ + 1 }
  | some (.wr r v) =>
    { p with
      at_ := p.at_ + 1
      trace := .w r.offset v :: p.trace
      core := p.core.take (.hostWrite (p.core.config.mmioBase + r.offset) .word v) }
  | some (.rd r k) =>
    let core := p.core.take (.hostRead (p.core.config.mmioBase + r.offset) .word)
    { p with
      at_ := p.at_ + 1
      trace := .r r.offset :: p.trace
      vars := (k, core.replyData) :: p.vars
      core := core }
  | some (.bnz k mask l) => if p.var k &&& mask ≠ 0 then p.jump l else { p with at_ := p.at_ + 1 }
  | some (.beq k v l) => if p.var k = v then p.jump l else { p with at_ := p.at_ + 1 }

/-- One turn: the engine's completion or the host's next statement, as the schedule says (R260, R280). -/
def HostRun.turn (engine : Bool) (p : HostRun) : HostRun :=
  if engine then { p with core := p.core.take .complete }
  else if p.halted then p
  else p.hostTurn

end Sys2Proof.Machine
end

