-- ==== Sys2Proof/Safety.lean ====
section
/-! DEFINITION. What a good state is: the relations between fields that every step keeps, in the terms the claims use. -/

namespace Sys2Proof.Machine

/-- ERR and ERRCODE go together: completion sets both, acceptance and a W1C write of ERR clear both (R36, R37, R242). -/
def Status.errMatchesCode (t : Status) : Prop := t.err = true ↔ t.errcode ≠ .eNone

/-- While a command is in flight DONE and ERR are clear, and LASTOP is its CMD[7:0] (R36, R240). -/
def State.busyStatus (s : State) : Prop :=
  match s.engine with
  | .idle => True
  | .busy sn _ => s.status.done = false ∧ s.status.err = false ∧ s.status.lastop = sn.cmd.extractLsb' 0 8

/-- No scheduled platform write will hit an operand byte of a completed command whose results and outcome are definite before
the host observes its completion: every race is drawn by the time it happens (R274, log 6). -/
def State.raceSeen (s : State) : Prop :=
  ∀ c ∈ s.unobserved, c.raced = false → writeAhead s.config c.checks s.watch s.inputs = false

/-- The invariant: canonical memory; STATUS consistent; OTP_BIN bit 31 "always 0" (R32, R44); every race drawn (R274). -/
structure State.Inv (s : State) : Prop where
  memWf     : s.mem.wf = true
  errCode   : s.status.errMatchesCode
  busyClear : s.busyStatus
  binTop    : s.otpBin.getLsbD 31 = false
  raceSeen  : s.raceSeen

end Sys2Proof.Machine
end

