-- ==== Sys2Proof/Certificates/Slice0/Obligations.lean ====
section
/-! DEFINITION. The statements about the jank-crypt CORE. The first part names the conditions and frames the statements
share; each statement's docstring says which rule of the spec it formalises. In a statement about a completion the frame
is the record itself: every field not named keeps its value, and the fields taken from `t` itself (`sha1Work`,
`usha0Work`, `draws`, `unobserved`: the unspecified residue of R282, the model's draw counter, and its record of completions
the host has not observed, which CommandsWriteOnlyTheirRegisters fixes) are not constrained. -/

namespace Sys2Proof.Machine

/-! ### Shared conditions and frames -/

/-- The region `[b, b + n)` does not wrap (R74: "legal only if b + n <= 2^64"). -/
def Fits (b : Word64) (n : Nat) : Prop := b.toNat + n ≤ 2 ^ 64

/-- Every byte of the region is readable (R71). -/
def Readable (c : Config) (b : Word64) (n : Nat) : Prop :=
  ∀ a, b.toNat ≤ a → a < b.toNat + n → memReadable c a = true

/-- No byte of the region has read side effects (R78). -/
def NoSideEffects (c : Config) (b : Word64) (n : Nat) : Prop :=
  ∀ a, b.toNat ≤ a → a < b.toNat + n → inRanges c.readSideEffects a = false

/-- `a` is min(bad), the lowest unreadable address of the region (R246). -/
def LowestUnreadable (c : Config) (b : Word64) (n : Nat) (a : Word64) : Prop :=
  b.toNat ≤ a.toNat ∧ a.toNat < b.toNat + n ∧ memReadable c a.toNat = false ∧
    ∀ x, b.toNat ≤ x → x < a.toNat → memReadable c x = true

/-- `t` is `s` after a failed completion (R242, R247): STATUS, FADDR as given, the engine idle, nothing else. -/
def FailedWith (s t : State) (code : ErrCode) (fa : Word64) : Prop :=
  t = { s with
    status := { s.status with done := true, err := true, errcode := code }
    faddr := fa
    engine := .idle
    sha1Work := t.sha1Work
    usha0Work := t.usha0Work
    draws := t.draws
    unobserved := t.unobserved }

/-- `s` after a successful completion, before the result registers are named (R242, R248). -/
def finished (s t : State) : State :=
  { s with
    status := { s.status with done := true, err := false, errcode := .eNone }
    engine := .idle
    sha1Work := t.sha1Work
    usha0Work := t.usha0Work
    draws := t.draws
    unobserved := t.unobserved }

/-- The command reads the key region (R94). -/
def ReadsKey : Instr → Prop
  | .hmacIpad | .hmacOpad | .hmac | .hotp | .totp => True
  | .sha1Init | .sha1Block | .sha1 | .usha0 | .totpCounter | .otpTrunc => False

/-- n_data of the command's data region; 0 where it reads none (R73, R94). -/
def dataLength (i : Instr) (sn : Snapshot) : Nat :=
  match i with
  | .sha1 | .usha0 | .hmac => sn.len.toNat
  | .sha1Block => 64
  | .otpTrunc => 20
  | .sha1Init | .hmacIpad | .hmacOpad | .totpCounter | .hotp | .totp => 0

/-- The address lies in an operand region of command `i` with this snapshot (R73). -/
def InOperandRegion (i : Instr) (sn : Snapshot) (a : Nat) : Prop :=
  ReadsKey i ∧ sn.key.toNat ≤ a ∧ a < sn.key.toNat + sn.klen.toNat ∨
    sn.src.toNat ≤ a ∧ a < sn.src.toNat + dataLength i sn

/-- Command `i` is in flight with this snapshot and no agent races it: none has written one of its operand bytes, and no
scheduled write hits one before the host observes its completion (R274; PlatformWriteIntoARegionRaces says what
`racesAhead` finds). -/
def Unraced (i : Instr) (s : State) (sn : Snapshot) : Prop :=
  s.engine = .busy sn false ∧ s.racesAhead (checksOf i sn) = false

/-- The command writes H0..H4 (R94). -/
def WritesH : Instr → Prop
  | .sha1Init | .sha1Block | .sha1 => True
  | .usha0 | .hmacIpad | .hmacOpad | .hmac | .totpCounter | .otpTrunc | .hotp | .totp => False

/-- The command writes RES (R94). -/
def WritesRes : Instr → Prop
  | .sha1 | .usha0 | .hmacIpad | .hmacOpad | .hmac | .totpCounter | .hotp | .totp => True
  | .sha1Init | .sha1Block | .otpTrunc => False

/-- The command writes OTP_BIN, OTP_VAL and OTP_STR0..2 (R94). -/
def WritesOtp : Instr → Prop
  | .otpTrunc | .hotp | .totp => True
  | .sha1Init | .sha1Block | .sha1 | .usha0 | .hmacIpad | .hmacOpad | .hmac | .totpCounter => False

/-- The command writes OTP_CNT (R94). -/
def WritesCnt : Instr → Prop
  | .totpCounter | .hotp | .totp => True
  | .sha1Init | .sha1Block | .sha1 | .usha0 | .hmacIpad | .hmacOpad | .hmac | .otpTrunc => False

/-- The error codes a command can raise (R243, last column). -/
def codesOf : Instr → List ErrCode
  | .sha1Init => []
  | .sha1Block => [.eRange, .eBus]
  | .sha1 | .usha0 | .hmacIpad | .hmacOpad | .hmac => [.eLen, .eRange, .eBus]
  | .totpCounter => [.eStep]
  | .otpTrunc => [.eDigits, .eRange, .eBus]
  | .hotp => [.eDigits, .eLen, .eRange, .eBus]
  | .totp => [.eDigits, .eStep, .eLen, .eRange, .eBus]

/-- Two snapshots agree on the operands the command lists (R94). -/
def SameListed (i : Instr) (a b : Snapshot) : Prop :=
  match i with
  | .sha1Init => True
  | .sha1Block => a.src = b.src ∧ a.h = b.h
  | .sha1 | .usha0 => a.src = b.src ∧ a.len = b.len
  | .hmacIpad | .hmacOpad => a.key = b.key ∧ a.klen = b.klen
  | .hmac => a.key = b.key ∧ a.klen = b.klen ∧ a.src = b.src ∧ a.len = b.len
  | .totpCounter => a.time = b.time ∧ a.step = b.step
  | .otpTrunc => a.src = b.src ∧ a.digits = b.digits
  | .hotp => a.key = b.key ∧ a.klen = b.klen ∧ a.ctr = b.ctr ∧ a.digits = b.digits
  | .totp => a.key = b.key ∧ a.klen = b.klen ∧ a.time = b.time ∧ a.step = b.step ∧ a.digits = b.digits

/-- The operand registers of R39. -/
def IsOperandReg (r : Reg) : Prop :=
  r ∈ [Reg.srcLo, .srcHi, .lenLo, .lenHi, .keyLo, .keyHi, .klenLo, .klenHi, .ctrLo, .ctrHi, .timeLo, .timeHi, .stepLo,
    .stepHi]

/-- The read-only registers of R32. -/
def IsReadOnlyReg (r : Reg) : Prop :=
  match r with
  | .id | .faddrLo | .faddrHi | .res _ | .otpBin | .otpVal | .otpStr _ | .otpCntLo | .otpCntHi => True
  | _ => False

/-- The reserved offsets of R33. -/
def ReservedOffset (off : Nat) : Prop :=
  off % 4 = 0 ∧ (off = 0x04C ∨ off = 0x058 ∨ off = 0x05C ∨ (0x074 ≤ off ∧ off ≤ 0x07C) ∨ (0x0DC ≤ off ∧ off ≤ 0x0FC))

/-- The host's 32-bit write of `v` to register `r` (R101's `W(offset, value)`). -/
def writeEvent (s : State) (r : Reg) (v : Word32) : Event := .hostWrite (s.config.mmioBase + r.offset) .word v

/-- The host's 32-bit read of register `r` (R101's `R(offset)`). -/
def readEvent (s : State) (r : Reg) : Event := .hostRead (s.config.mmioBase + r.offset) .word

/-- Phase C of the extender without step 2 (R156). -/
def phaseCWithoutStep2 (E : List Word64) (j : Nat) : List Word64 :=
  let E := E.set j (extAt E j ^^^ (((extAt E (j - 15)).rotateLeft 3 &&& 0xAF421F4D) ^^^ extAt E (j - 19)))
  let E := E.set (j - 7) (extAt E (j - 7) &&& ((extAt E (j - 9)).rotateRight 17 ^^^ 0x623144AF))
  let E := E.set (j - 2) ((extAt E (j - 15)).rotateRight 33 &&& 0xF3512FC1)
  let E := E.set (j - 6) (((extAt E (j - 5)).rotateRight 63 ||| 0xF3512FC1) ^^^ extAt E (j - 1))
  let E := E.set (j - 17) ((extAt E (j - 19)).rotateLeft 42 ^^^ (0xF3512FC1 &&& extAt E (j - 15)))
  let E := E.set (j - 3) ((extAt E (j - 4)).rotateLeft 27)
  E.set (j - 9) (extAt E j ^^^ extAt E (j - 5) ^^^ extAt E (j - 7))

/-- The words pass_mixer writes at index i (R165), as residues mod 32. -/
def mixerWrites (i : Nat) : List Nat :=
  let r := i % 32
  [r, (r + 5) % 32, (r + 17) % 32, (r + 8) % 32]
    ++ (if r = 0 then [12] else if r ≤ 16 then [(r + 21) % 32, (r + 14) % 32] else [(r + 23) % 32])

/-- The host's transactions that hash an already padded message of `n` blocks at `base` with SHA1_INIT and SHA1_BLOCK, each
command completing before the next access (R123 corner cases; 95_test_vectors P2). -/
def chainEvents (s : State) (base : Word64) (n : Nat) : List Event :=
  [writeEvent s .cmd 0x00000001, .complete]
    ++ (List.range n).flatMap fun j =>
      [writeEvent s .srcLo (loHalf (base + BitVec.ofNat 64 (64 * j))),
       writeEvent s .srcHi (hiHalf (base + BitVec.ofNat 64 (64 * j))),
       writeEvent s .cmd 0x00000002, .complete]

end Sys2Proof.Machine

open Sys2Proof Sys2Proof.Machine

/-! ### Encoding -/

/-- R91, R92: of all 2^32 words, exactly the eleven of R91's table are commands, each its own. -/
def Obligations.DecodeExactlyTheElevenWords : Prop :=
  ∀ (w : Word32) (i : Instr), decode w = some i ↔ w = encode i

/-- R91, a sanity check: the words of the table, written out bit by bit as opcode_table.json gives them. -/
def Obligations.DecodeTheTableWords : Prop :=
  decode 0b00000000000000000000000000000001#32 = some .sha1Init ∧
  decode 0b00000000000000000000000000000011#32 = some .sha1 ∧
  decode 0b00000000000000000000000000000100#32 = some .usha0 ∧
  decode 0b00000000000000000000000000000111#32 = some .hmac ∧
  decode 0b00000000000000000000000000001011#32 = some .totp ∧
  decode 0b00000000000000000000000000000000#32 = none ∧
  decode 0b00000000000000000000000000001100#32 = none ∧
  decode 0b00000000000000000000000100000011#32 = none

/-! ### The command lifecycle -/

/-- R242, R260: a step at which the engine's turn comes (scheduled, or nothing pending) completes the command in
flight, which is the command its word decodes to. -/
def Obligations.StepRunsTheCommandInFlight : Prop :=
  ∀ (s : State) (sn : Snapshot) (racy : Bool) (i : Instr) (rest : List Event),
    s.engine = .busy sn racy → decode sn.cmd = some i →
      (s.inputs = .complete :: rest → step s = exec i { s with inputs := rest }) ∧
      (s.inputs = [] → step s = exec i s)

/-- R240: acceptance. -/
def Obligations.IdleCmdWriteIsAccepted : Prop :=
  ∀ (s : State) (v : Word32) (rest : List Event),
    s.inputs = writeEvent s .cmd v :: rest → s.engine = .idle →
      step s = .next { s with
        inputs := rest
        reply := .written
        status := { s.status with done := false, err := false, errcode := .eNone, lastop := v.extractLsb' 0 8 }
        engine := .busy {
          cmd := v
          src := s.operands.srcHi ++ s.operands.srcLo
          len := s.operands.lenHi ++ s.operands.lenLo
          key := s.operands.keyHi ++ s.operands.keyLo
          klen := s.operands.klenHi ++ s.operands.klenLo
          ctr := s.operands.ctrHi ++ s.operands.ctrLo
          time := s.operands.timeHi ++ s.operands.timeLo
          step := s.operands.stepHi ++ s.operands.stepLo
          digits := s.digits
          h := s.h } false }

/-- R241: a CMD write while busy is dropped and sets OVR; nothing else changes. -/
def Obligations.BusyCmdWriteIsDropped : Prop :=
  ∀ (s : State) (v : Word32) (rest : List Event) (sn : Snapshot) (racy : Bool),
    s.inputs = writeEvent s .cmd v :: rest → s.engine = .busy sn racy →
      step s = .next { s with inputs := rest, reply := .written, status := { s.status with ovr := true } }

/-- R92: an illegal word (OPC = 0x00, OPC above 0x0B, or RSVD != 0) is accepted, and its completion ends with E_ILLEGAL and
changes no result register. Acceptance itself checks nothing: IdleCmdWriteIsAccepted holds for every word. -/
def Obligations.IllegalWordEndsInError : Prop :=
  ∀ (s : State) (sn : Snapshot) (racy : Bool),
    s.engine = .busy sn racy →
      (sn.cmd.extractLsb' 0 8 = 0#8 ∨ 0x0B < (sn.cmd.extractLsb' 0 8).toNat ∨ sn.cmd.extractLsb' 8 24 ≠ 0#24) →
        ∃ t, step { s with inputs := [] } = .next t ∧ FailedWith { s with inputs := [] } t .eIllegal s.faddr

/-- The model's choice (log 11, DESIGN CHOICE, from R49): running a command on an idle engine is its acceptance and
then its completion. -/
def Obligations.IdleCommandIsAcceptedThenCompleted : Prop :=
  ∀ (s : State) (i : Instr), s.engine = .idle →
    exec i s = exec i { s with
      status := { s.status with done := false, err := false, errcode := .eNone, lastop := (encode i).extractLsb' 0 8 }
      engine := .busy (s.snapshot (encode i)) false }

/-! ### The eleven commands: result, frame and every error, in the rule's order -/

/-- R122: SHA1_INIT loads the initial value, which is also H0..H4's reset value; it cannot fail. -/
def Obligations.Sha1InitLoadsTheInitialValue : Prop :=
  decode 0x00000001 = some .sha1Init ∧
  ∀ (s : State) (sn : Snapshot), s.engine = .busy sn false →
    ∃ t, exec .sha1Init s = .next t ∧
      t = { finished s t with h := ⟨0x67452301, 0xEFCDAB89, 0x98BADCFE, 0x10325476, 0xC3D2E1F0⟩ } ∧
      t.h = State.reset.h

/-- R123: SHA1_BLOCK compresses the 64 octets at SRC into the snapshot of H. -/
def Obligations.Sha1BlockCompressesOneBlock : Prop :=
  decode 0x00000002 = some .sha1Block ∧
  ∀ (s : State) (sn : Snapshot), Unraced .sha1Block s sn →
    ∃ t, exec .sha1Block s = .next t ∧
      (¬ Fits sn.src 64 → FailedWith s t .eRange s.faddr) ∧
      (Fits sn.src 64 → ∀ a, LowestUnreadable s.config sn.src 64 a → FailedWith s t .eBus a) ∧
      (Fits sn.src 64 → Readable s.config sn.src 64 → NoSideEffects s.config sn.src 64 →
        t = { finished s t with h := sha1Compress sn.h (s.mem.bytes sn.src.toNat 64) })

/-- R124: SHA1 digests LEN octets at SRC from the initial value. -/
def Obligations.Sha1DigestsTheMessage : Prop :=
  decode 0x00000003 = some .sha1 ∧
  ∀ (s : State) (sn : Snapshot), Unraced .sha1 s sn →
    ∃ t, exec .sha1 s = .next t ∧
      (2 ^ 61 - 1 < sn.len.toNat → FailedWith s t .eLen s.faddr) ∧
      (sn.len.toNat ≤ 2 ^ 61 - 1 → ¬ Fits sn.src sn.len.toNat → FailedWith s t .eRange s.faddr) ∧
      (sn.len.toNat ≤ 2 ^ 61 - 1 → Fits sn.src sn.len.toNat →
        ∀ a, LowestUnreadable s.config sn.src sn.len.toNat a → FailedWith s t .eBus a) ∧
      (sn.len.toNat ≤ 2 ^ 61 - 1 → Fits sn.src sn.len.toNat → Readable s.config sn.src sn.len.toNat →
        NoSideEffects s.config sn.src sn.len.toNat →
          t = { finished s t with
            h := sha1State (s.mem.bytes sn.src.toNat sn.len.toNat)
            res := pack (sha1 (s.mem.bytes sn.src.toNat sn.len.toNat)) })

/-- R169: USHA0 digests LEN octets at SRC. -/
def Obligations.Usha0DigestsTheMessage : Prop :=
  decode 0x00000004 = some .usha0 ∧
  ∀ (s : State) (sn : Snapshot), Unraced .usha0 s sn →
    ∃ t, exec .usha0 s = .next t ∧
      (2 ^ 61 - 1 < sn.len.toNat → FailedWith s t .eLen s.faddr) ∧
      (sn.len.toNat ≤ 2 ^ 61 - 1 → ¬ Fits sn.src sn.len.toNat → FailedWith s t .eRange s.faddr) ∧
      (sn.len.toNat ≤ 2 ^ 61 - 1 → Fits sn.src sn.len.toNat →
        ∀ a, LowestUnreadable s.config sn.src sn.len.toNat a → FailedWith s t .eBus a) ∧
      (sn.len.toNat ≤ 2 ^ 61 - 1 → Fits sn.src sn.len.toNat → Readable s.config sn.src sn.len.toNat →
        NoSideEffects s.config sn.src sn.len.toNat →
          t = { finished s t with
            res := pack (usha0 s.config.usha0AlignedPad (s.mem.bytes sn.src.toNat sn.len.toNat)) })

/-- R195: HMAC_IPAD gives the inner key block in RES. -/
def Obligations.HmacIpadGivesTheInnerKeyBlock : Prop :=
  decode 0x00000005 = some .hmacIpad ∧
  ∀ (s : State) (sn : Snapshot), Unraced .hmacIpad s sn →
    ∃ t, exec .hmacIpad s = .next t ∧
      (2 ^ 61 - 1 < sn.klen.toNat → FailedWith s t .eLen s.faddr) ∧
      (sn.klen.toNat ≤ 2 ^ 61 - 1 → ¬ Fits sn.key sn.klen.toNat → FailedWith s t .eRange s.faddr) ∧
      (sn.klen.toNat ≤ 2 ^ 61 - 1 → Fits sn.key sn.klen.toNat →
        ∀ a, LowestUnreadable s.config sn.key sn.klen.toNat a → FailedWith s t .eBus a) ∧
      (sn.klen.toNat ≤ 2 ^ 61 - 1 → Fits sn.key sn.klen.toNat → Readable s.config sn.key sn.klen.toNat →
        NoSideEffects s.config sn.key sn.klen.toNat →
          t = { finished s t with
            res := pack ((hmacKeynorm (s.mem.bytes sn.key.toNat sn.klen.toNat)).map fun k => k ^^^ 0x36#8) })

/-- R196: HMAC_OPAD gives the outer key block in RES. -/
def Obligations.HmacOpadGivesTheOuterKeyBlock : Prop :=
  decode 0x00000006 = some .hmacOpad ∧
  ∀ (s : State) (sn : Snapshot), Unraced .hmacOpad s sn →
    ∃ t, exec .hmacOpad s = .next t ∧
      (2 ^ 61 - 1 < sn.klen.toNat → FailedWith s t .eLen s.faddr) ∧
      (sn.klen.toNat ≤ 2 ^ 61 - 1 → ¬ Fits sn.key sn.klen.toNat → FailedWith s t .eRange s.faddr) ∧
      (sn.klen.toNat ≤ 2 ^ 61 - 1 → Fits sn.key sn.klen.toNat →
        ∀ a, LowestUnreadable s.config sn.key sn.klen.toNat a → FailedWith s t .eBus a) ∧
      (sn.klen.toNat ≤ 2 ^ 61 - 1 → Fits sn.key sn.klen.toNat → Readable s.config sn.key sn.klen.toNat →
        NoSideEffects s.config sn.key sn.klen.toNat →
          t = { finished s t with
            res := pack ((hmacKeynorm (s.mem.bytes sn.key.toNat sn.klen.toNat)).map fun k => k ^^^ 0x5C#8) })

/-- R197: HMAC gives the HMAC-SHA1 of the data under the key; every length check comes before every range check, and
both range checks before any readability check, the key before the data. -/
def Obligations.HmacAuthenticatesTheData : Prop :=
  decode 0x00000007 = some .hmac ∧
  ∀ (s : State) (sn : Snapshot), Unraced .hmac s sn →
    ∃ t, exec .hmac s = .next t ∧
      (2 ^ 61 - 1 < sn.klen.toNat ∨ 2 ^ 61 - 65 < sn.len.toNat → FailedWith s t .eLen s.faddr) ∧
      (sn.klen.toNat ≤ 2 ^ 61 - 1 → sn.len.toNat ≤ 2 ^ 61 - 65 →
        (¬ Fits sn.key sn.klen.toNat ∨ ¬ Fits sn.src sn.len.toNat → FailedWith s t .eRange s.faddr) ∧
        (Fits sn.key sn.klen.toNat → Fits sn.src sn.len.toNat →
          (∀ a, LowestUnreadable s.config sn.key sn.klen.toNat a → FailedWith s t .eBus a) ∧
          (Readable s.config sn.key sn.klen.toNat →
            (∀ a, LowestUnreadable s.config sn.src sn.len.toNat a → FailedWith s t .eBus a) ∧
            (Readable s.config sn.src sn.len.toNat → NoSideEffects s.config sn.key sn.klen.toNat →
              NoSideEffects s.config sn.src sn.len.toNat →
                t = { finished s t with
                  res := pack (hmac (s.mem.bytes sn.key.toNat sn.klen.toNat)
                    (s.mem.bytes sn.src.toNat sn.len.toNat)) }))))

/-- R219: TOTP_COUNTER divides TIME by STEP and serialises the quotient. -/
def Obligations.TotpCounterDividesTimeByStep : Prop :=
  decode 0x00000008 = some .totpCounter ∧
  ∀ (s : State) (sn : Snapshot), s.engine = .busy sn false →
    ∃ t, exec .totpCounter s = .next t ∧
      (sn.step = 0 → FailedWith s t .eStep s.faddr) ∧
      (sn.step ≠ 0 →
        t = { finished s t with otpCnt := t.otpCnt, res := pack (be8 t.otpCnt) } ∧
          t.otpCnt.toNat = sn.time.toNat / sn.step.toNat)

/-- R220: OTP_TRUNC truncates and reduces the 20 octets at SRC. -/
def Obligations.OtpTruncReducesTheBytes : Prop :=
  decode 0x00000009 = some .otpTrunc ∧
  ∀ (s : State) (sn : Snapshot), Unraced .otpTrunc s sn →
    ∃ t, exec .otpTrunc s = .next t ∧
      (sn.digits.toNat < 1 ∨ 10 < sn.digits.toNat → FailedWith s t .eDigits s.faddr) ∧
      (1 ≤ sn.digits.toNat → sn.digits.toNat ≤ 10 →
        (¬ Fits sn.src 20 → FailedWith s t .eRange s.faddr) ∧
        (Fits sn.src 20 →
          (∀ a, LowestUnreadable s.config sn.src 20 a → FailedWith s t .eBus a) ∧
          (Readable s.config sn.src 20 → NoSideEffects s.config sn.src 20 →
            t = { finished s t with
              otpBin := otpTrunc (s.mem.bytes sn.src.toNat 20)
              otpVal := t.otpVal
              otpStr := packstr (otpDecimal t.otpVal.toNat sn.digits.toNat) } ∧
            t.otpVal.toNat = (otpTrunc (s.mem.bytes sn.src.toNat 20)).toNat % 10 ^ sn.digits.toNat)))

/-- R221: HOTP gives the one-time password of the counter. -/
def Obligations.HotpGivesTheCounterPassword : Prop :=
  decode 0x0000000A = some .hotp ∧
  ∀ (s : State) (sn : Snapshot), Unraced .hotp s sn →
    ∃ t, exec .hotp s = .next t ∧
      (sn.digits.toNat < 1 ∨ 10 < sn.digits.toNat → FailedWith s t .eDigits s.faddr) ∧
      (1 ≤ sn.digits.toNat → sn.digits.toNat ≤ 10 →
        (2 ^ 61 - 1 < sn.klen.toNat → FailedWith s t .eLen s.faddr) ∧
        (sn.klen.toNat ≤ 2 ^ 61 - 1 →
          (¬ Fits sn.key sn.klen.toNat → FailedWith s t .eRange s.faddr) ∧
          (Fits sn.key sn.klen.toNat →
            (∀ a, LowestUnreadable s.config sn.key sn.klen.toNat a → FailedWith s t .eBus a) ∧
            (Readable s.config sn.key sn.klen.toNat → NoSideEffects s.config sn.key sn.klen.toNat →
              t = { finished s t with
                otpCnt := sn.ctr
                res := pack (hmac (s.mem.bytes sn.key.toNat sn.klen.toNat) (be8 sn.ctr))
                otpBin := otpTrunc (hmac (s.mem.bytes sn.key.toNat sn.klen.toNat) (be8 sn.ctr))
                otpVal := t.otpVal
                otpStr := packstr (hotp (s.mem.bytes sn.key.toNat sn.klen.toNat) sn.ctr sn.digits.toNat) } ∧
              t.otpVal.toNat = t.otpBin.toNat % 10 ^ sn.digits.toNat))))

/-- R222: TOTP gives the one-time password of the time. -/
def Obligations.TotpGivesTheTimePassword : Prop :=
  decode 0x0000000B = some .totp ∧
  ∀ (s : State) (sn : Snapshot), Unraced .totp s sn →
    ∃ t, exec .totp s = .next t ∧
      (sn.digits.toNat < 1 ∨ 10 < sn.digits.toNat → FailedWith s t .eDigits s.faddr) ∧
      (1 ≤ sn.digits.toNat → sn.digits.toNat ≤ 10 →
        (sn.step = 0 → FailedWith s t .eStep s.faddr) ∧
        (sn.step ≠ 0 →
          (2 ^ 61 - 1 < sn.klen.toNat → FailedWith s t .eLen s.faddr) ∧
          (sn.klen.toNat ≤ 2 ^ 61 - 1 →
            (¬ Fits sn.key sn.klen.toNat → FailedWith s t .eRange s.faddr) ∧
            (Fits sn.key sn.klen.toNat →
              (∀ a, LowestUnreadable s.config sn.key sn.klen.toNat a → FailedWith s t .eBus a) ∧
              (Readable s.config sn.key sn.klen.toNat → NoSideEffects s.config sn.key sn.klen.toNat →
                t = { finished s t with
                  otpCnt := t.otpCnt
                  res := pack (hmac (s.mem.bytes sn.key.toNat sn.klen.toNat) (be8 t.otpCnt))
                  otpBin := otpTrunc (hmac (s.mem.bytes sn.key.toNat sn.klen.toNat) (be8 t.otpCnt))
                  otpVal := t.otpVal
                  otpStr := packstr (totp (s.mem.bytes sn.key.toNat sn.klen.toNat) sn.time sn.step
                    sn.digits.toNat) } ∧
                t.otpCnt.toNat = sn.time.toNat / sn.step.toNat ∧
                t.otpVal.toNat = t.otpBin.toNat % 10 ^ sn.digits.toNat)))))

/-! ### Rules about all commands -/

/-- R247: a failed command (an illegal word included) commits none of its results: only STATUS, and FADDR on E_BUS, change
(and the hidden residue). That this holds of a raced command too, whose results R82 item 3, R274 and 93 I2 leave to one
joint draw, is the model's choice (log 6, DEDUCED). -/
def Obligations.FailedCommandCommitsNothing : Prop :=
  ∀ (s t : State) (sn : Snapshot) (racy : Bool),
    s.engine = .busy sn racy → (s.inputs = [] ∨ ∃ rest, s.inputs = .complete :: rest) → step s = .next t →
      t.status.err = true →
        FailedWith { s with inputs := s.inputs.tail } t t.status.errcode
          (if t.status.errcode = .eBus then t.faddr else s.faddr)

/-- R94, the "writes" column: a command changes no result register it does not list, whatever its outcome, and never an
operand register, DIGITS, CTRL, memory or the platform; FADDR only with E_BUS. That a raced command keeps to its row as
well is the model's choice (log 6, DEDUCED), and so is the record of the completion, the model's own field. -/
def Obligations.CommandsWriteOnlyTheirRegisters : Prop :=
  ∀ (i : Instr) (s t : State) (sn : Snapshot) (racy : Bool),
    s.engine = .busy sn racy → exec i s = .next t →
      (¬ WritesH i → t.h = s.h) ∧ (¬ WritesRes i → t.res = s.res) ∧
      (¬ WritesOtp i → t.otpBin = s.otpBin ∧ t.otpVal = s.otpVal ∧ t.otpStr = s.otpStr) ∧
      (¬ WritesCnt i → t.otpCnt = s.otpCnt) ∧ (t.status.errcode ≠ .eBus → t.faddr = s.faddr) ∧
      t.operands = s.operands ∧ t.digits = s.digits ∧ t.ie = s.ie ∧ t.mem = s.mem ∧ t.config = s.config ∧
      t.status.ovr = s.status.ovr ∧ t.status.lastop = s.status.lastop ∧ t.inputs = s.inputs ∧ t.reply = s.reply ∧
      t.unobserved = s.unobserved ++ [⟨some i, checksOf i sn, t.status.errcode, racy || s.racesAhead (checksOf i sn)⟩]

/-- R82 item 3, R274: a command raced before its completion, or to be raced before the host observes it, still completes, with
success or an error the command can have. That its next state does not depend on memory's contents is how the model draws it
(log 5, DESIGN CHOICE; log 6, DEDUCED), not a rule: the rules say only "any value". -/
def Obligations.RacyCommandOutcomeIsFree : Prop :=
  ∀ (i : Instr) (s : State) (sn : Snapshot) (racy : Bool) (m : Memory),
    s.engine = .busy sn racy → racy = true ∨ s.racesAhead (checksOf i sn) = true →
      ∃ t, exec i s = .next t ∧ t.engine = .idle ∧ t.status.done = true ∧
        (t.status.err = false ∧ t.status.errcode = .eNone ∨ t.status.err = true ∧ t.status.errcode ∈ codesOf i) ∧
        exec i { s with mem := m } = .next { t with mem := m }

/-- R82 item 3, R260 MemWrite, R274: a platform write stores one octet and changes nothing else (memory being canonical) but
that, while busy, it makes the command in flight racy exactly when it hits one of its operand regions (R73). And a
completing command is raced by a write to come exactly when, as the machine runs on, a platform write hits one of its
operand regions before an observation or a reset: until then some completion is on record as unobserved at every step.
So H0..H4, ERR, ERRCODE and every other register keep what they hold at the late write itself (R37, R42); the
results and the outcome it makes any value were drawn at completion (log 6, DEDUCED). -/
def Obligations.PlatformWriteIntoARegionRaces : Prop :=
  (∀ (s : State) (a : Word64) (b : Byte) (rest : List Event), s.inputs = .memWrite a b :: rest →
    ∃ t, step s = .next t ∧ t = { s with inputs := rest, mem := t.mem, engine := t.engine } ∧
      (s.mem.wf = true → ∀ x, t.mem.read x = if x = a.toNat then b else s.mem.read x) ∧
      (s.engine = .idle → t.engine = .idle) ∧
      ∀ (sn : Snapshot) (racy : Bool), s.engine = .busy sn racy →
        (∀ i, decode sn.cmd = some i → InOperandRegion i sn a.toNat → t.engine = .busy sn true) ∧
        ((∀ i, decode sn.cmd = some i → ¬ InOperandRegion i sn a.toNat) → t.engine = .busy sn racy)) ∧
  ∀ (i : Instr) (s t : State) (sn : Snapshot) (racy : Bool), s.engine = .busy sn racy → exec i s = .next t →
    (s.racesAhead (checksOf i sn) = true ↔
      ∃ n u a b rest, Host.Core.run Sys2Proof.core n t = .next u ∧ u.inputs = .memWrite a b :: rest ∧
        InOperandRegion i sn a.toNat ∧
        ∀ k, k ≤ n → ∃ v, Host.Core.run Sys2Proof.core k t = .next v ∧ v.unobserved ≠ [])

/-- R244, the sentence it marks as derived from R71: for a fixed snapshot and a fixed P_MEM_READABLE the outcome is deterministic, whatever the
memory and every other register hold. -/
def Obligations.OutcomeDependsOnSnapshotAndReadability : Prop :=
  ∀ (i : Instr) (s s' t t' : State) (sn : Snapshot),
    Unraced i s sn → Unraced i s' sn →
      (∀ a, a < 2 ^ 64 → memReadable s.config a = memReadable s'.config a) →
        exec i s = .next t → exec i s' = .next t' →
          t.status.err = t'.status.err ∧ t.status.errcode = t'.status.errcode ∧
            (t.status.errcode = .eBus → t.faddr = t'.faddr)

/-- R50: completion reads the snapshot and not the live registers: changing the operand registers, DIGITS or H0..H4 of a
busy core changes nothing the command commits. -/
def Obligations.CompletionReadsTheSnapshot : Prop :=
  ∀ (i : Instr) (s t : State) (sn : Snapshot) (racy : Bool) (o : OperandRegs) (d : BitVec 8) (x : Sha1State),
    s.engine = .busy sn racy → exec i s = .next t →
      ∃ y, exec i { s with operands := o, digits := d, h := x } =
          .next { t with operands := o, digits := d, h := y } ∧
        (WritesH i → t.status.err = false → y = t.h) ∧ (¬ WritesH i ∨ t.status.err = true → y = x)

/-- R94: "An operand register a command does not list is ignored": two snapshots that agree on the listed operands run
alike. -/
def Obligations.UnlistedOperandsCannotMatter : Prop :=
  ∀ (i : Instr) (s : State) (a b : Snapshot) (racy : Bool), SameListed i a b →
    exec i { s with engine := .busy a racy } = exec i { s with engine := .busy b racy }

/-- R53: no working state is carried from one command to the next: a step does the same whatever the working state
holds. -/
def Obligations.NoWorkingStateIsCarriedOver : Prop :=
  ∀ (s t : State) (w : Option Sha1Work) (u : Option Usha0Work), step s = .next t →
    ∃ t', step { s with sha1Work := w, usha0Work := u } = .next t' ∧
      t' = { t with sha1Work := t'.sha1Work, usha0Work := t'.usha0Work }

/-- R218 as commands: with STEP not 0, TOTP does what HOTP does with the counter floor(TIME / STEP), when no agent races it. (Only
the model's record of unobserved completions names a different command.) -/
def Obligations.TotpIsHotpOfTheTimeStep : Prop :=
  ∀ (s : State) (sn : Snapshot) (ctr : Word64), sn.step ≠ 0 → ctr.toNat = sn.time.toNat / sn.step.toNat →
    s.racesAhead (checksOf .totp sn) = false →
    ∃ t u, exec .hotp { s with engine := .busy { sn with ctr := ctr } false } = .next t ∧
      exec .totp { s with engine := .busy sn false } = .next { t with unobserved := u }

/-! ### The machine as a whole -/

/-- R260, R242: every step answers a next state: the core raises no exception and stops on nothing. -/
def Obligations.EveryStepGoesOn : Prop :=
  (∀ s : State, ∃ t, step s = .next t) ∧ ∀ (i : Instr) (s : State), ∃ t, exec i s = .next t

/-- Every step keeps the invariant: canonical memory, ERR exactly with a non-zero ERRCODE, DONE and ERR clear while busy with
LASTOP the command's opcode byte, OTP_BIN bit 31 zero (R32, R36, R44), and no write to come that hits an operand byte of a
command whose completion is unobserved and whose results are definite (R274). -/
def Obligations.EveryStepKeepsTheInvariant : Prop :=
  ∀ s t : State, s.Inv → step s = .next t → t.Inv

/-- The reset state meets the invariant. -/
def Obligations.ResetMeetsTheInvariant : Prop :=
  State.reset.Inv ∧ ∀ (c : Config) (m : Memory) (inputs : List Event) (n : Nat), m.wf = true →
    (State.resetWith c m inputs n).Inv

/-- R71: the core never writes operand memory: only a platform write changes memory, and only the octet it names. That the
platform's parameters never change in any step is the model's choice (log 14, DEDUCED from 93 I13, and log 1, DESIGN
CHOICE); R71 says it of P_MEM_READABLE only while a command is in flight. -/
def Obligations.OnlyPlatformWritesChangeMemory : Prop :=
  ∀ s t : State, step s = .next t →
    t.config = s.config ∧
      (t.mem = s.mem ∨
        ∃ a b rest, s.inputs = .memWrite a b :: rest ∧
          (s.mem.wf = true → ∀ x, t.mem.read x = if x = a.toNat then b else s.mem.read x))

/-- R41: FADDR changes only at a completion with E_BUS, and at reset. -/
def Obligations.FaddrChangesOnlyOnBusErrorOrReset : Prop :=
  ∀ s t : State, step s = .next t → t.faddr ≠ s.faddr →
    (s.busy = true ∧ t.busy = false ∧ t.status.errcode = .eBus ∧
        (s.inputs = [] ∨ ∃ rest, s.inputs = .complete :: rest)) ∨
      ∃ rest, s.inputs = .reset :: rest

/-- R36 BUSY: "Only those two events write it, and reset clears it": acceptance of a CMD write sets it; completion and
reset clear it. -/
def Obligations.BusyChangesOnlyAtLifecycleEvents : Prop :=
  ∀ s t : State, step s = .next t → t.busy ≠ s.busy →
    (s.busy = false ∧ ∃ v rest, s.inputs = writeEvent s .cmd v :: rest) ∨
      (s.busy = true ∧ (s.inputs = [] ∨ (∃ rest, s.inputs = .complete :: rest) ∨ ∃ rest, s.inputs = .reset :: rest))

/-- R280 in the model's schedule (log 4): when no more events come, the engine finishes: after every pending event and one
more step nothing is in flight. -/
def Obligations.AcceptedCommandsComplete : Prop :=
  ∀ s : State, ∃ t, Host.Core.run Sys2Proof.core (s.inputs.length + 1) s = .next t ∧ t.inputs = [] ∧ t.busy = false

/-- R259: between commands, with no event pending, the core keeps every register. -/
def Obligations.IdleCoreKeepsEveryRegister : Prop :=
  ∀ s : State, s.engine = .idle → s.inputs = [] → step s = .next s

/-- R270 to R272: reset puts every register to its reset value, abandons the command in flight, and changes neither memory
nor the platform. (The pending schedule and the draw counter are the model's own and go on.) -/
def Obligations.ResetRestoresEveryRegister : Prop :=
  ∀ (s : State) (rest : List Event), s.inputs = .reset :: rest →
    ∃ t, step s = .next t ∧ t.config = s.config ∧ t.mem = s.mem ∧ t.inputs = rest ∧
      t.h = ⟨0x67452301, 0xEFCDAB89, 0x98BADCFE, 0x10325476, 0xC3D2E1F0⟩ ∧
      t.readReg .id = s.config.coreId ∧ t.readReg .ctrl = 0 ∧ t.readReg .status = 0 ∧ t.readReg .cmd = 0 ∧
      (∀ r, IsOperandReg r → t.readReg r = 0) ∧ t.readReg .digits = 0 ∧ t.faddr = 0 ∧ (∀ k : Fin 16, t.res[k] = 0) ∧
      t.otpBin = 0 ∧ t.otpVal = 0 ∧ (∀ k : Fin 3, t.otpStr[k] = 0) ∧ t.otpCnt = 0 ∧ t.engine = .idle ∧
      t.sha1Work = none ∧ t.usha0Work = none ∧ t.irq = false ∧ t.unobserved = []

/-- R55: what the state right after reset holds, on any platform, with any memory. (The pending events and the draw counter
are the model's own.) -/
def Obligations.ResetStateHoldsTheResetValues : Prop :=
  State.reset = State.resetWith Config.default [] [] 0 ∧
  ∀ (c : Config) (m : Memory) (inputs : List Event) (n : Nat),
    let t := State.resetWith c m inputs n
    t.h = ⟨0x67452301, 0xEFCDAB89, 0x98BADCFE, 0x10325476, 0xC3D2E1F0⟩ ∧ t.readReg .id = c.coreId ∧
      (∀ r : Reg, r ≠ .id → (∀ k, r ≠ .h k) → t.readReg r = 0) ∧ t.engine = .idle ∧ t.busy = false ∧
      t.sha1Work = none ∧ t.usha0Work = none ∧ t.irq = false

/-! ### The register window -/

/-- R32: every register has its own offset in the window; the offsets with no register are the reserved ones of R33. -/
def Obligations.RegisterMapIsExact : Prop :=
  (∀ r : Reg, r.offset < 0x100 ∧ r.offset % 4 = 0 ∧ regAt r.offset = some r) ∧
  ∀ off, off < 0x100 → off % 4 = 0 → (regAt off = none ↔ ReservedOffset off)

/-- R31: a host access that is not 32 bits wide at a multiple of 4 inside the window gets a bus error and changes no state;
a legal one never gets one. -/
def Obligations.IllegalAccessGetsABusError : Prop :=
  ∀ (s : State) (addr : Nat) (size : AccessSize) (v : Word32),
    let legal := size = .word ∧ s.config.mmioBase ≤ addr ∧ addr < s.config.mmioBase + 0x100 ∧
      (addr - s.config.mmioBase) % 4 = 0
    (¬ legal →
      step { s with inputs := [.hostWrite addr size v] } = .next { s with inputs := [], reply := .busError } ∧
      step { s with inputs := [.hostRead addr size] } = .next { s with inputs := [], reply := .busError }) ∧
    (legal →
      (∃ t, step { s with inputs := [.hostWrite addr size v] } = .next t ∧ t.reply = .written) ∧
      ∃ t x, step { s with inputs := [.hostRead addr size] } = .next t ∧ t.reply = .data x)

/-- R33: reserved offsets and reserved bit fields read 0 and ignore writes; a write to a read-only register is ignored. -/
def Obligations.ReservedAndReadOnlyIgnoreWrites : Prop :=
  ∀ (s : State) (v : Word32) (rest : List Event),
    (∀ off, ReservedOffset off →
      (s.inputs = .hostWrite (s.config.mmioBase + off) .word v :: rest →
        step s = .next { s with inputs := rest, reply := .written }) ∧
      (s.inputs = .hostRead (s.config.mmioBase + off) .word :: rest →
        step s = .next { s with inputs := rest, reply := .data 0 })) ∧
    (∀ r, IsReadOnlyReg r → s.inputs = writeEvent s r v :: rest →
      step s = .next { s with inputs := rest, reply := .written }) ∧
    (s.readReg .ctrl).extractLsb' 1 31 = 0#31 ∧ (s.readReg .digits).extractLsb' 8 24 = 0#24 ∧
    (s.readReg .status).extractLsb' 4 4 = 0#4 ∧ (s.readReg .status).extractLsb' 24 8 = 0#8

/-- R36, R32: the layout of STATUS, and R243's codes in its ERRCODE field. -/
def Obligations.StatusLayout : Prop :=
  ∀ s : State,
    (s.readReg .status).getLsbD 0 = s.busy ∧ (s.readReg .status).getLsbD 1 = s.status.done ∧
    (s.readReg .status).getLsbD 2 = s.status.err ∧ (s.readReg .status).getLsbD 3 = s.status.ovr ∧
    (s.readReg .status).extractLsb' 16 8 = s.status.lastop ∧
    (s.readReg .status).extractLsb' 8 8 =
      (match s.status.errcode with
        | .eNone => 0x00#8
        | .eIllegal => 0x01#8
        | .eLen => 0x02#8
        | .eRange => 0x03#8
        | .eBus => 0x04#8
        | .eDigits => 0x05#8
        | .eStep => 0x06#8)

/-- R37: a write to STATUS clears the W1C bits written as 1, ERR together with ERRCODE, and changes nothing else. -/
def Obligations.StatusWriteClearsW1cBits : Prop :=
  ∀ (s : State) (v : Word32) (rest : List Event), s.inputs = writeEvent s .status v :: rest →
    step s = .next { s with
      inputs := rest
      reply := .written
      status := {
        done := if v.getLsbD 1 then false else s.status.done
        err := if v.getLsbD 2 then false else s.status.err
        ovr := if v.getLsbD 3 then false else s.status.ovr
        errcode := if v.getLsbD 2 then .eNone else s.status.errcode
        lastop := s.status.lastop } }

/-- R35: a write to CTRL, busy or not, sets IE to bit 0 at once; a read gives IE in bit 0 and 0 elsewhere. -/
def Obligations.CtrlHoldsTheInterruptEnable : Prop :=
  ∀ (s : State) (v : Word32) (rest : List Event),
    (s.inputs = writeEvent s .ctrl v :: rest →
      step s = .next { s with inputs := rest, reply := .written, ie := v.getLsbD 0 }) ∧
    (s.inputs = readEvent s .ctrl :: rest →
      step s = .next { s with inputs := rest, reply := .data (if s.ie then 0x00000001 else 0x00000000) })

/-- R39, R40, R47: an operand register takes any 32-bit value at any time and reads it back, DIGITS its low 8 bits; no other
register changes, and neither does the command in flight. -/
def Obligations.OperandWriteReadsBack : Prop :=
  ∀ (s : State) (r : Reg) (v : Word32) (rest : List Event), s.inputs = writeEvent s r v :: rest →
    (IsOperandReg r →
      ∃ t, step s = .next t ∧ t = { s with inputs := rest, reply := .written, operands := t.operands } ∧
        t.readReg r = v ∧ ∀ r', r' ≠ r → t.readReg r' = s.readReg r') ∧
    (r = .digits →
      ∃ t, step s = .next t ∧ t = { s with inputs := rest, reply := .written, digits := t.digits } ∧
        t.readReg .digits = v &&& 0x000000FF)

/-- R42: H0..H4 take a host write only while idle; a write while busy is dropped and sets OVR. -/
def Obligations.StateWordsAreWrittenOnlyWhenIdle : Prop :=
  ∀ (s : State) (k : Fin 5) (v : Word32) (rest : List Event), s.inputs = writeEvent s (.h k) v :: rest →
    (s.busy = false →
      ∃ t, step s = .next t ∧ t = { s with inputs := rest, reply := .written, h := t.h } ∧
        t.readReg (.h k) = v ∧ ∀ j, j ≠ k → t.readReg (.h j) = s.readReg (.h j)) ∧
    (s.busy = true →
      step s = .next { s with inputs := rest, reply := .written, status := { s.status with ovr := true } })

/-- R32, R34, R38 to R44, R46: a read of a register that is no result register, or of any register while idle, gives its value
and has no side effect; and the value of each register is that of the state it shows (STATUS and CTRL: StatusLayout,
CtrlHoldsTheInterruptEnable), so what a command commits is what the host reads. R82 item 4: a read of STATUS that returns BUSY = 0 or
DONE = 1, and a look at the interrupt output while it is high, observe completion, which only the model's own record
shows (log 21). -/
def Obligations.ValidReadsGiveTheValue : Prop :=
  (∀ (s : State) (r : Reg) (rest : List Event), s.inputs = readEvent s r :: rest →
    (s.busy = true → r.isResult = false) →
      step s = .next { s with
        inputs := rest
        reply := .data (s.readReg r)
        unobserved := if r = .status ∧ (s.busy = false ∨ s.status.done = true) then [] else s.unobserved }) ∧
  (∀ (s : State) (rest : List Event), s.inputs = .hostIrq :: rest →
    step s = .next { s with
      inputs := rest
      reply := .irq s.irq
      unobserved := if s.irq = true then [] else s.unobserved }) ∧
  ∀ s : State,
    s.readReg .id = s.config.coreId ∧ s.readReg .cmd = 0 ∧
    s.readReg .srcLo = s.operands.srcLo ∧ s.readReg .srcHi = s.operands.srcHi ∧
    s.readReg .lenLo = s.operands.lenLo ∧ s.readReg .lenHi = s.operands.lenHi ∧
    s.readReg .keyLo = s.operands.keyLo ∧ s.readReg .keyHi = s.operands.keyHi ∧
    s.readReg .klenLo = s.operands.klenLo ∧ s.readReg .klenHi = s.operands.klenHi ∧
    s.readReg .ctrLo = s.operands.ctrLo ∧ s.readReg .ctrHi = s.operands.ctrHi ∧
    s.readReg .timeLo = s.operands.timeLo ∧ s.readReg .timeHi = s.operands.timeHi ∧
    s.readReg .stepLo = s.operands.stepLo ∧ s.readReg .stepHi = s.operands.stepHi ∧
    s.readReg .digits = 0#24 ++ s.digits ∧
    s.readReg .faddrHi ++ s.readReg .faddrLo = s.faddr ∧
    s.readReg (.h 0) = s.h.h0 ∧ s.readReg (.h 1) = s.h.h1 ∧ s.readReg (.h 2) = s.h.h2 ∧
    s.readReg (.h 3) = s.h.h3 ∧ s.readReg (.h 4) = s.h.h4 ∧
    (∀ k : Fin 16, s.readReg (.res k) = s.res[k]) ∧
    s.readReg .otpBin = s.otpBin ∧ s.readReg .otpVal = s.otpVal ∧ (∀ k : Fin 3, s.readReg (.otpStr k) = s.otpStr[k]) ∧
    s.readReg .otpCntHi ++ s.readReg .otpCntLo = s.otpCnt

/-- R45: a read of a result register while busy gives some value (a free one, log 5) and has no side effect. -/
def Obligations.BusyResultReadHasNoSideEffect : Prop :=
  ∀ (s : State) (r : Reg) (rest : List Event), s.inputs = readEvent s r :: rest → s.busy = true →
    (r ∈ [.faddrLo, .faddrHi, .otpBin, .otpVal, .otpCntLo, .otpCntHi] ∨ (∃ k, r = .h k) ∨ (∃ k, r = .res k) ∨
        ∃ k, r = .otpStr k) →
      ∃ t x, step s = .next t ∧ t = { s with inputs := rest, reply := .data x, draws := t.draws } ∧
        ∀ r', t.readReg r' = s.readReg r'

/-- R249: IRQ = CTRL.IE and STATUS.DONE: it rises at completion exactly when IE = 1, and falls at acceptance, at a W1C write
of DONE, when IE is cleared, and at reset. -/
def Obligations.InterruptFollowsEnableAndDone : Prop :=
  (∀ s : State, s.irq = true ↔ s.ie = true ∧ s.status.done = true) ∧
  (∀ s t : State, s.busy = true → s.inputs = [] → step s = .next t → t.irq = s.ie) ∧
  (∀ (s t : State) (v : Word32) (rest : List Event), step s = .next t →
    (s.inputs = writeEvent s .ctrl v :: rest → t.irq = (v.getLsbD 0 && s.status.done)) ∧
    (s.inputs = writeEvent s .status v :: rest → v.getLsbD 1 = true → t.irq = false) ∧
    (s.inputs = writeEvent s .cmd v :: rest → s.busy = false → t.irq = false) ∧
    (s.inputs = .reset :: rest → t.irq = false))

/-! ### The algorithms -/

/-- R111, R112: the padded SHA-1 message is M, 0x80, z = (55 − |M|) mod 64 zero octets, and the 64-bit big-endian bit length;
it fills (|M| + 8) div 64 + 1 blocks, and the octet form is the bit form. -/
def Obligations.Sha1PaddingFillsBlocks : Prop :=
  ∀ M : Bytes, ∃ z, z < 64 ∧ (z + M.length) % 64 = 55 ∧
    sha1Pad M = M ++ [0x80#8] ++ List.replicate z 0#8 ++ be8 (BitVec.ofNat 64 (8 * M.length)) ∧
    (sha1Pad M).length = 64 * ((M.length + 8) / 64 + 1) ∧
    (7 + 8 * z + 8 * M.length) % 512 = 447

/-- R113, R114: the schedule has 80 words, the first 16 the big-endian words of the block, each later one the recurrence. -/
def Obligations.Sha1ScheduleRecurrence : Prop :=
  ∀ B : Bytes, (sha1Schedule B).length = 80 ∧
    (∀ t, t < 16 → (sha1Schedule B).getD t 0 =
      byteAt B (4 * t) ++ byteAt B (4 * t + 1) ++ byteAt B (4 * t + 2) ++ byteAt B (4 * t + 3)) ∧
    ∀ t, 16 ≤ t → t < 80 → (sha1Schedule B).getD t 0 =
      ((sha1Schedule B).getD (t - 3) 0 ^^^ (sha1Schedule B).getD (t - 8) 0 ^^^ (sha1Schedule B).getD (t - 14) 0
        ^^^ (sha1Schedule B).getD (t - 16) 0).rotateLeft 1

/-- R120, R123 (corner cases), 90_conflicts C7: a host that pads by R112 and chains SHA1_BLOCK, one transaction and one
completion at a time, is left with H = sha1_state(M), every command having succeeded (ERR is 0 after every step). -/
def Obligations.ChainedBlocksReproduceSha1 : Prop :=
  ∀ (s : State) (M : Bytes) (base : Word64),
    s.engine = .idle → Fits base (sha1Pad M).length → Readable s.config base (sha1Pad M).length →
      NoSideEffects s.config base (sha1Pad M).length → s.mem.bytes base.toNat (sha1Pad M).length = sha1Pad M →
        let events := chainEvents s base ((sha1Pad M).length / 64)
        ∃ t, Host.Core.run Sys2Proof.core events.length { s with inputs := events } = .next t ∧
          t.h = sha1State M ∧ t.inputs = [] ∧ t.busy = false ∧ t.res = s.res ∧
          ∀ k, 1 ≤ k → k ≤ events.length →
            ∃ u, Host.Core.run Sys2Proof.core k { s with inputs := events } = .next u ∧ u.status.err = false

/-- R150, R151, R157: the padded USHA0 message is M, be8(|M|) and zeros; its length is a positive multiple of 128, the least that
holds M and the length with P_USHA0_ALIGNED_PAD false, and the least above it with true; X has 48 words a chunk. -/
def Obligations.Usha0PaddingFillsChunks : Prop :=
  ∀ (p : Bool) (M : Bytes), ∃ z,
    usha0Pad p M = M ++ be8 (BitVec.ofNat 64 M.length) ++ List.replicate z 0#8 ∧
    (usha0Pad p M).length % 128 = 0 ∧ 128 ≤ (usha0Pad p M).length ∧
    (p = false → z < 128) ∧ (p = true → 1 ≤ z ∧ z ≤ 128) ∧
    (usha0Extended p M).length = 48 * ((usha0Pad p M).length / 128)

/-- R156, an inference the spec derives from R155: leaving out step 2 of Phase C gives the same extended words. -/
def Obligations.ExtenderStep2IsDead : Prop :=
  ∀ C : Bytes,
    (List.range' 20 28).foldl phaseCWithoutStep2 ((List.range' 16 16).foldl usha0PhaseB (usha0PhaseA C)) =
      usha0Extend C

/-- 95_test_vectors V-U-5, from R154 and R155: word 0 of a chunk passes straight through the extender and reaches no other
word. -/
def Obligations.ExtenderWord0PassesThrough : Prop :=
  ∀ C C' : Bytes, extAt (usha0Extend C) 0 = beU64 C 0 ∧
    ((∀ i, 8 ≤ i → byteAt C i = byteAt C' i) →
      ∀ j, 1 ≤ j → extAt (usha0Extend C) j = extAt (usha0Extend C') j)

/-- R164, R165: pass_mixer depends on i only through i mod 32, and writes only the words R165's table lists. -/
def Obligations.MixerWritesOnlyItsWords : Prop :=
  ∀ (S : List Word64) (i : Nat) (b : Word64), S.length = 32 →
    usha0Mix S i b = usha0Mix S (i % 32) b ∧ (usha0Mix S i b).length = 32 ∧
      ∀ j, j < 32 → j ∉ mixerWrites i → mixAt (usha0Mix S i b) j = mixAt S j

/-- R190, R193: the key block has 64 octets, and keys of at most 64 octets that differ only in trailing zero octets give the
same HMAC; HMAC, SHA-1 and USHA0 outputs have 20, 20 and 32 octets (R120, R167). -/
def Obligations.TrailingZerosDoNotChangeTheKey : Prop :=
  ∀ (K D : Bytes) (n : Nat) (p : Bool),
    (hmacKeynorm K).length = 64 ∧ (K.length + n ≤ 64 → hmac (K ++ List.replicate n 0#8) D = hmac K D) ∧
      (hmac K D).length = 20 ∧ (sha1 D).length = 20 ∧ (usha0 p D).length = 32

/-- R212, R213, R214: the offset keeps the four octets inside H; bin is their big-endian value with the top bit cleared,
below 2^31; ten digits leave it unchanged. -/
def Obligations.TruncationIsA31BitValue : Prop :=
  ∀ H : Bytes, ∃ o, o = (byteAt H 19).toNat % 16 ∧ o + 3 ≤ 18 ∧
    (otpTrunc H).toNat =
      ((byteAt H o).toNat % 128) * 2 ^ 24 + (byteAt H (o + 1)).toNat * 2 ^ 16 + (byteAt H (o + 2)).toNat * 2 ^ 8
        + (byteAt H (o + 3)).toNat ∧
    (otpTrunc H).toNat < 2 ^ 31 ∧ otpReduce (otpTrunc H).toNat 10 = (otpTrunc H).toNat

/-- R215: the string has exactly d octets, all decimal digits, and read as a decimal number it is v; so hotp's value lies in
[0, 10^d). -/
def Obligations.DecimalStringSpellsTheValue : Prop :=
  (∀ v d : Nat, v < 10 ^ d →
    (otpDecimal v d).length = d ∧ (∀ c ∈ otpDecimal v d, 0x30 ≤ c.toNat ∧ c.toNat ≤ 0x39) ∧
      (otpDecimal v d).foldl (fun acc c => 10 * acc + (c.toNat - 0x30)) 0 = v) ∧
  ∀ (K : Bytes) (C : Word64) (d : Nat), (hotp K C d).length = d ∧
    (hotp K C d).foldl (fun acc c => 10 * acc + (c.toNat - 0x30)) 0 < 10 ^ d

/-- R95, R97: octet 4k + j of a byte result is the j-th octet, from the top, of result word k, and words past the result are 0;
the OTP string likewise over OTP_STR0..2, zero-filled; and RESi = Hi after a SHA-1 digest (R96). -/
def Obligations.ResultPackingIsBigEndian : Prop :=
  (∀ (B : Bytes) (k : Fin 16) (j : Nat), B.length % 4 = 0 → j < 4 →
    ((pack B)[k]).extractLsb' (24 - 8 * j) 8 = byteAt B (4 * k.val + j)) ∧
  (∀ (z : Bytes) (k : Fin 3) (j : Nat), z.length ≤ 10 → j < 4 →
    ((packstr z)[k]).extractLsb' (24 - 8 * j) 8 = byteAt z (4 * k.val + j)) ∧
  (∀ (h : Sha1State) (i : Fin 5), (pack h.digest)[i.val] = h.get i) ∧
  ∀ (h : Sha1State) (k : Fin 16), 5 ≤ k.val → (pack h.digest)[k] = 0

/-! ### Host programs -/

/-- R99, R100, R101: a `wr` is one write transaction, a `rd` one read transaction whose value reaches its variable, and `wait`
expands to a read of STATUS and a branch back while BUSY. -/
def Obligations.HostStatementsAreTransactions : Prop :=
  (∀ (p : HostRun) (r : Reg) (v : Word32), p.prog[p.at_]? = some (.wr r v) →
    p.hostTurn.trace = .w r.offset v :: p.trace ∧
      .next p.hostTurn.core = step { p.core with inputs := writeEvent p.core r v :: p.core.inputs }) ∧
  (∀ (p : HostRun) (r : Reg) (k : Nat), p.prog[p.at_]? = some (.rd r k) →
    (p.core.busy = true → r.isResult = false) →
      p.hostTurn.trace = .r r.offset :: p.trace ∧ p.hostTurn.var k = p.core.readReg r) ∧
  (∀ (i : Instr) (fresh : Nat), HostLine.expand fresh (.run i) =
    [.wr .cmd (encode i), .label fresh, .rd .status 0, .bnz 0 0x1 fresh])
end

