-- ==== Sys2Proof/Laws/Bytes.lean ====
section
/-! SUPPORT. The small lemmas of byte sequences and of the algorithms' lengths (spec/00_scope.md R11, spec/30_encoding.md
R95, R97). -/

namespace Sys2Proof.Machine

@[simp] theorem length_be4 (v : Word32) : (be4 v).length = 4 := rfl
@[simp] theorem length_be8 (v : Word64) : (be8 v).length = 8 := rfl
@[simp] theorem length_zeros (n : Nat) : (zeros n).length = n := by simp [zeros]
@[simp] theorem zeros_zero : zeros 0 = [] := rfl
@[simp] theorem byteAt_nil (i : Nat) : byteAt [] i = 0 := rfl

/-- Result word k (R95). -/
theorem getElem_pack (B : Bytes) (k : Nat) (h : k < 16) :
    (pack B)[k] = if 4 * k + 4 ≤ B.length then beU32 B (4 * k) else 0 := by simp [pack]

/-- String word k (R97). -/
theorem getElem_packstr (s : Bytes) (k : Nat) (h : k < 3) :
    (packstr s)[k] = beU32 (s ++ zeros (12 - s.length)) (4 * k) := by simp [packstr]

@[simp] theorem length_digest (h : Sha1State) : h.digest.length = 20 := rfl
@[simp] theorem length_sha1 (M : Bytes) : (sha1 M).length = 20 := rfl
@[simp] theorem length_otpSer (C : Word64) : (otpSer C).length = 8 := rfl
@[simp] theorem length_hmacPadxor (K : Bytes) (p : Byte) : (hmacPadxor K p).length = K.length := by simp [hmacPadxor]

@[simp] theorem length_sha1Extend (n : Nat) (W : List Word32) : (sha1Extend n W).length = W.length + n := by
  induction n generalizing W with
  | zero => rfl
  | succ n ih => simp [sha1Extend, ih]; omega

@[simp] theorem length_sha1Parse (B : Bytes) : (sha1Parse B).length = 16 := by simp [sha1Parse]

@[simp] theorem length_sha1Schedule (B : Bytes) : (sha1Schedule B).length = 80 := by simp [sha1Schedule]

/-- Words already in the schedule stay (R114). -/
theorem getD_sha1Extend (n i : Nat) (W : List Word32) (h : i < W.length) : (sha1Extend n W).getD i 0 = W.getD i 0 := by
  induction n generalizing W with
  | zero => rfl
  | succ n ih => rw [sha1Extend, ih _ (by simp; omega)]; simp [List.getD, List.getElem?_append_left h]

@[simp] theorem length_mixPut (S : List Word64) (i : Nat) (v : Word64) : (mixPut S i v).length = S.length := by
  simp [mixPut]

/-- Reading a state word after a write (R159 to R164: every index is taken mod 32). -/
theorem mixAt_mixPut (S : List Word64) (i j : Nat) (v : Word64) (h : S.length = 32) :
    mixAt (mixPut S i v) j = if i % 32 = j % 32 then v else mixAt S j := by
  have hi : i % 32 < S.length := by omega
  by_cases hij : i % 32 = j % 32
  · rw [if_pos hij, mixAt, mixPut, hij, List.getD_eq_getElem?_getD, List.getElem?_set_self (by omega)]; rfl
  · simp [mixAt, mixPut, hij, List.getD, List.getElem?_set_ne hij]

@[simp] theorem length_usha0MixFront (S : List Word64) (i : Nat) (b : Word64) :
    (usha0MixFront S i b).length = S.length := by simp [usha0MixFront]

@[simp] theorem length_usha0MixBranch (S : List Word64) (i : Nat) : (usha0MixBranch S i).length = S.length := by
  unfold usha0MixBranch; split
  · simp
  · split <;> simp

@[simp] theorem length_usha0Mix (S : List Word64) (i : Nat) (b : Word64) : (usha0Mix S i b).length = S.length := by
  simp [usha0Mix]

@[simp] theorem length_usha0PhaseA (C : Bytes) : (usha0PhaseA C).length = 48 := by simp [usha0PhaseA]

@[simp] theorem length_usha0PhaseB (E : List Word64) (j : Nat) : (usha0PhaseB E j).length = E.length := by
  simp [usha0PhaseB]

@[simp] theorem length_usha0PhaseC (E : List Word64) (j : Nat) : (usha0PhaseC E j).length = E.length := by
  simp [usha0PhaseC]

theorem length_foldl_keep (f : List Word64 → Nat → List Word64) (hf : ∀ E j, (f E j).length = E.length)
    (js : List Nat) (E : List Word64) : (js.foldl f E).length = E.length := by
  induction js generalizing E with
  | nil => rfl
  | cons j js ih => rw [List.foldl_cons, ih, hf]

/-- The extender gives 48 words (R152). -/
@[simp] theorem length_usha0Extend (C : Bytes) : (usha0Extend C).length = 48 := by
  rw [usha0Extend, length_foldl_keep _ length_usha0PhaseC, length_foldl_keep _ length_usha0PhaseB, length_usha0PhaseA]

end Sys2Proof.Machine
end

