-- ==== Sys2Proof/Laws/Memory.lean ====
section
/-! SUPPORT. The laws of operand memory: read after write, the canonical form, and the lowest address of a region in a
set of ranges (spec/20_memory.md R71 to R74, spec/60_exceptions.md R246). -/

namespace Sys2Proof.Machine

theorem Memory.wfFrom_cons (lo k : Nat) (w : Byte) (m : Memory) :
    Memory.wfFrom lo ((k, w) :: m) = true ↔
      lo ≤ k ∧ k < addressSpace ∧ w ≠ Memory.unlisted ∧ Memory.wfFrom (k + 1) m = true := by
  simp [Memory.wfFrom, and_assoc]

theorem Memory.wfFrom_mono {m : Memory} {lo lo' : Nat} (h : lo' ≤ lo) (hm : Memory.wfFrom lo m = true) :
    Memory.wfFrom lo' m = true := by
  cases m with
  | nil => rfl
  | cons c m =>
    obtain ⟨k, w⟩ := c
    rw [Memory.wfFrom_cons] at hm ⊢
    exact ⟨Nat.le_trans h hm.1, hm.2⟩

/-- Below a canonical memory's first address nothing is listed. -/
theorem Memory.read_absent {m : Memory} {lo x : Nat} (hm : Memory.wfFrom lo m = true) (hx : x < lo) :
    m.read x = Memory.unlisted := by
  induction m generalizing lo with
  | nil => rfl
  | cons c m ih =>
    obtain ⟨k, w⟩ := c
    rw [Memory.wfFrom_cons] at hm
    rw [Memory.read, if_neg (by omega)]
    exact ih hm.2.2.2 (by omega)

theorem Memory.read_write (m : Memory) (lo a b : Nat) (v : Byte) (hm : Memory.wfFrom lo m = true) :
    (m.write a v).read b = if b = a then v else m.read b := by
  induction m generalizing lo with
  | nil => simp only [Memory.write]; split <;> split <;> simp_all [Memory.read]
  | cons c m ih =>
    obtain ⟨k, w⟩ := c
    have hm' := hm
    rw [Memory.wfFrom_cons] at hm
    simp only [Memory.write]
    split
    · split
      · by_cases h : b = a
        · rw [if_pos h, Memory.read, if_neg (by omega), read_absent hm.2.2.2 (by omega)]
          exact (‹v = Memory.unlisted›).symm
        · simp [h]
      · simp only [Memory.read]
    · split
      · rename_i _ hak
        split
        · by_cases h : b = a
          · rw [if_pos h, read_absent hm.2.2.2 (by omega)]; exact (‹v = Memory.unlisted›).symm
          · rw [if_neg h, Memory.read, if_neg (by omega)]
        · subst hak; simp only [Memory.read]; split <;> rfl
      · simp only [Memory.read, ih (k + 1) hm.2.2.2]; split <;> split <;> first | rfl | omega

/-- Every write keeps the canonical form. -/
theorem Memory.write_wfFrom (m : Memory) (lo a : Nat) (v : Byte) (hlo : lo ≤ a) (ha : a < addressSpace)
    (hm : Memory.wfFrom lo m = true) : Memory.wfFrom lo (m.write a v) = true := by
  induction m generalizing lo with
  | nil => simp only [Memory.write]; split <;> simp_all [Memory.wfFrom]
  | cons c m ih =>
    obtain ⟨k, w⟩ := c
    have hm' := hm
    rw [Memory.wfFrom_cons] at hm
    simp only [Memory.write]
    split
    · split
      · exact hm'
      · simp_all [Memory.wfFrom_cons]
    · split
      · split
        · exact Memory.wfFrom_mono (by omega) hm.2.2.2
        · simp_all [Memory.wfFrom_cons]
      · rw [Memory.wfFrom_cons]
        exact ⟨hm.1, hm.2.1, hm.2.2.1, ih (k + 1) (by omega) hm.2.2.2⟩

/-- Every write keeps the canonical form. -/
theorem Memory.write_wf (m : Memory) (a : Word64) (v : Byte) (hm : m.wf = true) : (m.write a.toNat v).wf = true :=
  Memory.write_wfFrom m 0 a.toNat v (by omega) a.isLt hm

/-- Reading after a write, on a canonical memory. -/
theorem Memory.read_write_wf (m : Memory) (a b : Nat) (v : Byte) (hm : m.wf = true) :
    (m.write a v).read b = if b = a then v else m.read b := Memory.read_write m 0 a b v hm

@[simp] theorem Memory.length_bytes (m : Memory) (b n : Nat) : (m.bytes b n).length = n := by simp [Memory.bytes]

@[simp] theorem Memory.region_none (m : Memory) : m.region none = [] := rfl
@[simp] theorem Memory.region_some (m : Memory) (r : Region) : m.region (some r) = m.bytes r.base r.len := rfl

@[simp] theorem Memory.bytes_zero (m : Memory) (b : Nat) : m.bytes b 0 = [] := rfl

theorem Memory.byteAt_bytes (m : Memory) (b n i : Nat) (h : i < n) : (m.bytes b n).getD i 0 = m.read (b + i) := by
  simp [Memory.bytes, List.getD, h]

/-- A block of a region's octets is a region's octets (R72). -/
theorem Memory.blockAt_bytes (m : Memory) (b n k j : Nat) (h : k * j + k ≤ n) :
    blockAt k (m.bytes b n) j = m.bytes (b + k * j) k := by
  apply List.ext_getElem
  · simp [blockAt]; omega
  · intro i h1 h2
    simp [blockAt, Memory.bytes, Nat.add_assoc]

theorem Region.contains_iff (r : Region) (a : Nat) : r.contains a = true ↔ r.base ≤ a ∧ a < r.base + r.len := by
  simp [Region.contains]

theorem inRanges_cons (q : AddrRange) (qs : List AddrRange) (a : Nat) :
    inRanges (q :: qs) a = true ↔ (q.lo ≤ a ∧ a < q.hi) ∨ inRanges qs a = true := by simp [inRanges]

/-- No address of the region lies in the ranges, when there is no lowest one. -/
theorem lowestIn_eq_none (qs : List AddrRange) (r : Region) :
    lowestIn qs r = none ↔ ∀ a, r.contains a = true → inRanges qs a = false := by
  induction qs with
  | nil => simp [lowestIn, inRanges]
  | cons q qs ih =>
    have hl : ∀ x y, lower x y = none ↔ x = none ∧ y = none := by rintro (_ | _) (_ | _) <;> simp [lower]
    rw [lowestIn, hl, ih]
    have hq : rangeLowestIn q r = none ↔ ∀ a, r.contains a = true → ¬ (q.lo ≤ a ∧ a < q.hi) := by
      simp only [rangeLowestIn, Region.contains_iff]
      constructor
      · intro h a ha; split at h <;> simp_all; omega
      · intro h; split
        · exact absurd ⟨by omega, by omega⟩ (h (max q.lo r.base) (by omega))
        · rfl
    rw [hq]
    simp only [← Bool.not_eq_true, inRanges_cons, not_or]
    exact ⟨fun h a ha => ⟨h.1 a ha, h.2 a ha⟩, fun h => ⟨fun a ha => (h a ha).1, fun a ha => (h a ha).2⟩⟩

/-- `lowestIn` is the least address of the region in the ranges: `min(bad)` (R246). -/
theorem lowestIn_eq_some (qs : List AddrRange) (r : Region) (a : Nat) :
    lowestIn qs r = some a ↔
      r.contains a = true ∧ inRanges qs a = true ∧ ∀ b, r.contains b = true → inRanges qs b = true → a ≤ b := by
  have exists_of_some : ∀ (qs : List AddrRange) (a : Nat), lowestIn qs r = some a →
      r.contains a = true ∧ inRanges qs a = true ∧ ∀ b, r.contains b = true → inRanges qs b = true → a ≤ b := by
    intro qs
    induction qs with
    | nil => simp [lowestIn]
    | cons q qs ih =>
      intro a h
      have hq : ∀ x, rangeLowestIn q r = some x →
          r.contains x = true ∧ (q.lo ≤ x ∧ x < q.hi) ∧
            ∀ b, r.contains b = true → (q.lo ≤ b ∧ b < q.hi) → x ≤ b := by
        intro x hx
        simp only [rangeLowestIn, Region.contains_iff] at hx ⊢
        split at hx <;> simp at hx
        subst hx
        exact ⟨by omega, by omega, fun b _ _ => by omega⟩
      have hq0 : rangeLowestIn q r = none → ∀ b, r.contains b = true → ¬ (q.lo ≤ b ∧ b < q.hi) := by
        intro hx b hb
        simp only [rangeLowestIn, Region.contains_iff] at hx hb
        split at hx <;> simp_all; omega
      have h0 := (lowestIn_eq_none qs r).1
      rw [lowestIn] at h
      simp only [inRanges_cons]
      cases hx : rangeLowestIn q r with
      | none =>
        cases hy : lowestIn qs r with
        | none => simp [hx, hy, lower] at h
        | some y =>
          simp only [hx, hy, lower, Option.some.injEq] at h
          subst h
          obtain ⟨h1, h2, h3⟩ := ih y hy
          exact ⟨h1, .inr h2, fun b hb h => h.elim (fun h => absurd h (hq0 hx b hb)) (h3 b hb)⟩
      | some x =>
        obtain ⟨g1, g2, g3⟩ := hq x hx
        cases hy : lowestIn qs r with
        | none =>
          simp only [hx, hy, lower, Option.some.injEq] at h
          subst h
          exact ⟨g1, .inl g2, fun b hb h => h.elim (g3 b hb) (fun h => by simp [h0 hy b hb] at h)⟩
        | some y =>
          simp only [hx, hy, lower, Option.some.injEq] at h
          obtain ⟨h1, h2, h3⟩ := ih y hy
          subst h
          refine ⟨?_, ?_, fun b hb h => h.elim (fun h => ?_) (fun h => ?_)⟩
          · rcases Nat.le_total x y with hxy | hxy
            · rw [Nat.min_eq_left hxy]; exact g1
            · rw [Nat.min_eq_right hxy]; exact h1
          · rcases Nat.le_total x y with hxy | hxy
            · rw [Nat.min_eq_left hxy]; exact .inl g2
            · rw [Nat.min_eq_right hxy]; exact .inr h2
          · exact Nat.le_trans (Nat.min_le_left _ _) (g3 b hb h)
          · exact Nat.le_trans (Nat.min_le_right _ _) (h3 b hb h)
  refine ⟨exists_of_some qs a, fun ⟨h1, h2, h3⟩ => ?_⟩
  cases h : lowestIn qs r with
  | none => simp [(lowestIn_eq_none qs r).1 h a h1] at h2
  | some x =>
    obtain ⟨g1, g2, g3⟩ := exists_of_some qs x h
    exact congrArg some (Nat.le_antisymm (g3 a h1 h2) (h3 x g1 g2))

end Sys2Proof.Machine
end

