-- ==== Sys2Proof/Laws/Operands.lean ====
section
/-! SUPPORT. What each check of R244 says, once: its condition when it fails and when it passes. -/

namespace Sys2Proof.Machine

/-- Validation is the first failing check (R244). -/
theorem validate_eq (c : Config) (k : Checks) (sn : Snapshot) :
    validate c k sn =
      (digitsCheck k sn).or ((stepCheck k sn).or ((klenCheck k sn).or ((lenCheck k sn).or
        ((rangeCheck k.key).or ((rangeCheck k.data).or ((busCheck c k.key).or (busCheck c k.data))))))) := by
  unfold validate
  cases digitsCheck k sn <;> cases stepCheck k sn <;> cases klenCheck k sn <;> cases lenCheck k sn <;>
    cases rangeCheck k.key <;> cases rangeCheck k.data <;> cases busCheck c k.key <;> cases busCheck c k.data <;> rfl

/-- Validation passes exactly when every check passes. -/
theorem validate_eq_none (c : Config) (k : Checks) (sn : Snapshot) :
    validate c k sn = none ↔
      digitsCheck k sn = none ∧ stepCheck k sn = none ∧ klenCheck k sn = none ∧ lenCheck k sn = none ∧
        rangeCheck k.key = none ∧ rangeCheck k.data = none ∧ busCheck c k.key = none ∧ busCheck c k.data = none := by
  simp [validate_eq, Option.or_eq_none_iff]

theorem Region.wraps_iff (r : Region) : r.wraps = true ↔ 0 < r.len ∧ 2 ^ 64 < r.base + r.len := by
  rw [Region.wraps, Bool.and_eq_true, decide_eq_true_eq, decide_eq_true_eq]; rfl

/-- A region based at a 64-bit address wraps exactly when it ends past 2^64 (R74: an empty region never does). -/
theorem Region.wraps_iff_of_base (a : Word64) (n : Nat) : (Region.mk a.toNat n).wraps = true ↔ 2 ^ 64 < a.toNat + n := by
  rw [Region.wraps_iff]; have := a.isLt; dsimp only; omega

theorem rangeCheck_eq_none (a : Word64) (n : Nat) :
    rangeCheck (some ⟨a.toNat, n⟩) = none ↔ a.toNat + n ≤ 2 ^ 64 := by
  have := Region.wraps_iff_of_base a n
  simp only [rangeCheck]
  split <;> simp_all

theorem rangeCheck_eq_some (a : Word64) (n : Nat) (h : 2 ^ 64 < a.toNat + n) :
    rangeCheck (some ⟨a.toNat, n⟩) = some .range := by
  simp [rangeCheck, (Region.wraps_iff_of_base a n).2 h]

theorem busCheck_eq_none (c : Config) (r : Region) :
    busCheck c (some r) = none ↔ ∀ a, r.base ≤ a → a < r.base + r.len → memReadable c a = true := by
  have h := lowestIn_eq_none c.unreadable r
  simp only [busCheck]
  cases hl : lowestIn c.unreadable r with
  | none =>
    rw [hl] at h
    simpa [memReadable, Region.contains_iff] using fun a h1 h2 => h.1 rfl a ((Region.contains_iff r a).2 ⟨h1, h2⟩)
  | some x =>
    simp only [reduceCtorEq, false_iff]
    intro hr
    refine absurd (h.2 fun a ha => ?_) (by simp [hl])
    have := hr a ((Region.contains_iff r a).1 ha).1 ((Region.contains_iff r a).1 ha).2
    simpa [memReadable] using this

/-- E_BUS carries the lowest unreadable address of the region (R246). -/
theorem busCheck_eq_some (c : Config) (r : Region) (a : Nat) (h1 : r.base ≤ a) (h2 : a < r.base + r.len)
    (ha : memReadable c a = false) (hmin : ∀ b, r.base ≤ b → b < a → memReadable c b = true) :
    busCheck c (some r) = some (.bus (BitVec.ofNat 64 a)) := by
  have : lowestIn c.unreadable r = some a := by
    refine (lowestIn_eq_some c.unreadable r a).2 ⟨(Region.contains_iff r a).2 ⟨h1, h2⟩, by simpa [memReadable] using ha, ?_⟩
    intro b hb hbad
    by_contra hlt
    have := hmin b ((Region.contains_iff r b).1 hb).1 (by omega)
    simp [memReadable, hbad] at this
  simp [busCheck, this]

/-! Each check, passing and failing. -/

theorem digitsCheck_pass (k : Checks) (sn : Snapshot) (h1 : 1 ≤ sn.digits.toNat) (h2 : sn.digits.toNat ≤ 10) :
    digitsCheck k sn = none := if_neg fun h => h.2 ⟨h1, h2⟩

theorem digitsCheck_absent (k : Checks) (sn : Snapshot) (hk : k.digits = false) : digitsCheck k sn = none :=
  if_neg fun h => Bool.false_ne_true (hk.symm.trans h.1)

theorem digitsCheck_fail (k : Checks) (sn : Snapshot) (hk : k.digits = true)
    (h : sn.digits.toNat < 1 ∨ 10 < sn.digits.toNat) : digitsCheck k sn = some .digits := if_pos ⟨hk, by omega⟩

theorem stepCheck_pass (k : Checks) (sn : Snapshot) (h : sn.step ≠ 0) : stepCheck k sn = none := if_neg fun c => h c.2

theorem stepCheck_absent (k : Checks) (sn : Snapshot) (hk : k.step = false) : stepCheck k sn = none :=
  if_neg fun h => Bool.false_ne_true (hk.symm.trans h.1)

theorem stepCheck_fail (k : Checks) (sn : Snapshot) (hk : k.step = true) (h : sn.step = 0) :
    stepCheck k sn = some .step := if_pos ⟨hk, h⟩

theorem klenCheck_pass (k : Checks) (sn : Snapshot) (h : sn.klen.toNat ≤ 2 ^ 61 - 1) : klenCheck k sn = none :=
  if_neg fun c => Nat.not_lt.2 h c.2

theorem klenCheck_absent (k : Checks) (sn : Snapshot) (hk : k.klen = false) : klenCheck k sn = none :=
  if_neg fun h => Bool.false_ne_true (hk.symm.trans h.1)

theorem klenCheck_fail (k : Checks) (sn : Snapshot) (hk : k.klen = true) (h : 2 ^ 61 - 1 < sn.klen.toNat) :
    klenCheck k sn = some .len := if_pos ⟨hk, h⟩

theorem lenCheck_absent (k : Checks) (sn : Snapshot) (hk : k.lenMax = none) : lenCheck k sn = none := by
  simp [lenCheck, hk]

theorem lenCheck_pass (k : Checks) (sn : Snapshot) (n : Nat) (hk : k.lenMax = some n) (h : sn.len.toNat ≤ n) :
    lenCheck k sn = none := by simp only [lenCheck, hk]; exact if_neg (Nat.not_lt.2 h)

theorem lenCheck_fail (k : Checks) (sn : Snapshot) (n : Nat) (hk : k.lenMax = some n) (h : n < sn.len.toNat) :
    lenCheck k sn = some .len := by simp only [lenCheck, hk]; exact if_pos h

@[simp] theorem rangeCheck_none : rangeCheck none = none := rfl
@[simp] theorem busCheck_none (c : Config) : busCheck c none = none := rfl

/-- The code of an error is never E_NONE (R243). -/
theorem CmdError.code_ne_none (e : CmdError) : e.code ≠ .eNone := by cases e <;> simp [CmdError.code]

end Sys2Proof.Machine
end

