-- ==== Sys2Proof/Laws/State.lean ====
section
/-! SUPPORT. What each shared update of the state leaves in each field, true by unfolding: later proofs simplify with these
and never unfold a record update. -/

namespace Sys2Proof.Machine

/-! `State.accept` -/

@[simp] theorem State.accept_config (s : State) (v : Word32) : (s.accept v).config = s.config := rfl
@[simp] theorem State.accept_mem (s : State) (v : Word32) : (s.accept v).mem = s.mem := rfl
@[simp] theorem State.accept_ie (s : State) (v : Word32) : (s.accept v).ie = s.ie := rfl
@[simp] theorem State.accept_status (s : State) (v : Word32) : (s.accept v).status = s.status.accepted v := rfl
@[simp] theorem State.accept_operands (s : State) (v : Word32) : (s.accept v).operands = s.operands := rfl
@[simp] theorem State.accept_digits (s : State) (v : Word32) : (s.accept v).digits = s.digits := rfl
@[simp] theorem State.accept_faddr (s : State) (v : Word32) : (s.accept v).faddr = s.faddr := rfl
@[simp] theorem State.accept_h (s : State) (v : Word32) : (s.accept v).h = s.h := rfl
@[simp] theorem State.accept_res (s : State) (v : Word32) : (s.accept v).res = s.res := rfl
@[simp] theorem State.accept_otpBin (s : State) (v : Word32) : (s.accept v).otpBin = s.otpBin := rfl
@[simp] theorem State.accept_otpVal (s : State) (v : Word32) : (s.accept v).otpVal = s.otpVal := rfl
@[simp] theorem State.accept_otpStr (s : State) (v : Word32) : (s.accept v).otpStr = s.otpStr := rfl
@[simp] theorem State.accept_otpCnt (s : State) (v : Word32) : (s.accept v).otpCnt = s.otpCnt := rfl
@[simp] theorem State.accept_engine (s : State) (v : Word32) : (s.accept v).engine = .busy (s.snapshot v) false := rfl
@[simp] theorem State.accept_sha1Work (s : State) (v : Word32) : (s.accept v).sha1Work = s.sha1Work := rfl
@[simp] theorem State.accept_usha0Work (s : State) (v : Word32) : (s.accept v).usha0Work = s.usha0Work := rfl
@[simp] theorem State.accept_inputs (s : State) (v : Word32) : (s.accept v).inputs = s.inputs := rfl
@[simp] theorem State.accept_reply (s : State) (v : Word32) : (s.accept v).reply = s.reply := rfl
@[simp] theorem State.accept_draws (s : State) (v : Word32) : (s.accept v).draws = s.draws := rfl
@[simp] theorem State.accept_unobserved (s : State) (v : Word32) : (s.accept v).unobserved = s.unobserved := rfl

/-! `State.dropWrite` -/

@[simp] theorem State.dropWrite_config (s : State) : (s.dropWrite).config = s.config := rfl
@[simp] theorem State.dropWrite_mem (s : State) : (s.dropWrite).mem = s.mem := rfl
@[simp] theorem State.dropWrite_ie (s : State) : (s.dropWrite).ie = s.ie := rfl
@[simp] theorem State.dropWrite_status (s : State) : (s.dropWrite).status = s.status.overrun := rfl
@[simp] theorem State.dropWrite_operands (s : State) : (s.dropWrite).operands = s.operands := rfl
@[simp] theorem State.dropWrite_digits (s : State) : (s.dropWrite).digits = s.digits := rfl
@[simp] theorem State.dropWrite_faddr (s : State) : (s.dropWrite).faddr = s.faddr := rfl
@[simp] theorem State.dropWrite_h (s : State) : (s.dropWrite).h = s.h := rfl
@[simp] theorem State.dropWrite_res (s : State) : (s.dropWrite).res = s.res := rfl
@[simp] theorem State.dropWrite_otpBin (s : State) : (s.dropWrite).otpBin = s.otpBin := rfl
@[simp] theorem State.dropWrite_otpVal (s : State) : (s.dropWrite).otpVal = s.otpVal := rfl
@[simp] theorem State.dropWrite_otpStr (s : State) : (s.dropWrite).otpStr = s.otpStr := rfl
@[simp] theorem State.dropWrite_otpCnt (s : State) : (s.dropWrite).otpCnt = s.otpCnt := rfl
@[simp] theorem State.dropWrite_engine (s : State) : (s.dropWrite).engine = s.engine := rfl
@[simp] theorem State.dropWrite_sha1Work (s : State) : (s.dropWrite).sha1Work = s.sha1Work := rfl
@[simp] theorem State.dropWrite_usha0Work (s : State) : (s.dropWrite).usha0Work = s.usha0Work := rfl
@[simp] theorem State.dropWrite_inputs (s : State) : (s.dropWrite).inputs = s.inputs := rfl
@[simp] theorem State.dropWrite_reply (s : State) : (s.dropWrite).reply = s.reply := rfl
@[simp] theorem State.dropWrite_draws (s : State) : (s.dropWrite).draws = s.draws := rfl
@[simp] theorem State.dropWrite_unobserved (s : State) : (s.dropWrite).unobserved = s.unobserved := rfl

/-! `State.commit` -/

@[simp] theorem State.commit_config (s : State) (c : Commit) : (s.commit c).config = s.config := rfl
@[simp] theorem State.commit_mem (s : State) (c : Commit) : (s.commit c).mem = s.mem := rfl
@[simp] theorem State.commit_ie (s : State) (c : Commit) : (s.commit c).ie = s.ie := rfl
@[simp] theorem State.commit_status (s : State) (c : Commit) : (s.commit c).status = s.status := rfl
@[simp] theorem State.commit_operands (s : State) (c : Commit) : (s.commit c).operands = s.operands := rfl
@[simp] theorem State.commit_digits (s : State) (c : Commit) : (s.commit c).digits = s.digits := rfl
@[simp] theorem State.commit_faddr (s : State) (c : Commit) : (s.commit c).faddr = s.faddr := rfl
@[simp] theorem State.commit_h (s : State) (c : Commit) : (s.commit c).h = c.h.getD s.h := rfl
@[simp] theorem State.commit_res (s : State) (c : Commit) : (s.commit c).res = c.res.getD s.res := rfl
@[simp] theorem State.commit_otpBin (s : State) (c : Commit) : (s.commit c).otpBin = (c.otp.map (·.bin)).getD s.otpBin := rfl
@[simp] theorem State.commit_otpVal (s : State) (c : Commit) : (s.commit c).otpVal = (c.otp.map (·.val)).getD s.otpVal := rfl
@[simp] theorem State.commit_otpStr (s : State) (c : Commit) : (s.commit c).otpStr = (c.otp.map (·.str)).getD s.otpStr := rfl
@[simp] theorem State.commit_otpCnt (s : State) (c : Commit) : (s.commit c).otpCnt = c.cnt.getD s.otpCnt := rfl
@[simp] theorem State.commit_engine (s : State) (c : Commit) : (s.commit c).engine = s.engine := rfl
@[simp] theorem State.commit_sha1Work (s : State) (c : Commit) : (s.commit c).sha1Work = s.sha1Work := rfl
@[simp] theorem State.commit_usha0Work (s : State) (c : Commit) : (s.commit c).usha0Work = s.usha0Work := rfl
@[simp] theorem State.commit_inputs (s : State) (c : Commit) : (s.commit c).inputs = s.inputs := rfl
@[simp] theorem State.commit_reply (s : State) (c : Commit) : (s.commit c).reply = s.reply := rfl
@[simp] theorem State.commit_draws (s : State) (c : Commit) : (s.commit c).draws = s.draws := rfl
@[simp] theorem State.commit_unobserved (s : State) (c : Commit) : (s.commit c).unobserved = s.unobserved := rfl

/-! `State.settle` -/

@[simp] theorem State.settle_config (s : State) : (s.settle).config = s.config := rfl
@[simp] theorem State.settle_mem (s : State) : (s.settle).mem = s.mem := rfl
@[simp] theorem State.settle_ie (s : State) : (s.settle).ie = s.ie := rfl
@[simp] theorem State.settle_status (s : State) : (s.settle).status = s.status := rfl
@[simp] theorem State.settle_operands (s : State) : (s.settle).operands = s.operands := rfl
@[simp] theorem State.settle_digits (s : State) : (s.settle).digits = s.digits := rfl
@[simp] theorem State.settle_faddr (s : State) : (s.settle).faddr = s.faddr := rfl
@[simp] theorem State.settle_h (s : State) : (s.settle).h = s.h := rfl
@[simp] theorem State.settle_res (s : State) : (s.settle).res = s.res := rfl
@[simp] theorem State.settle_otpBin (s : State) : (s.settle).otpBin = s.otpBin := rfl
@[simp] theorem State.settle_otpVal (s : State) : (s.settle).otpVal = s.otpVal := rfl
@[simp] theorem State.settle_otpStr (s : State) : (s.settle).otpStr = s.otpStr := rfl
@[simp] theorem State.settle_otpCnt (s : State) : (s.settle).otpCnt = s.otpCnt := rfl
@[simp] theorem State.settle_engine (s : State) : (s.settle).engine = .idle := rfl
@[simp] theorem State.settle_sha1Work (s : State) : (s.settle).sha1Work = some (drawSha1Work s.draws) := rfl
@[simp] theorem State.settle_usha0Work (s : State) : (s.settle).usha0Work = some (drawUsha0Work s.draws) := rfl
@[simp] theorem State.settle_inputs (s : State) : (s.settle).inputs = s.inputs := rfl
@[simp] theorem State.settle_reply (s : State) : (s.settle).reply = s.reply := rfl
@[simp] theorem State.settle_draws (s : State) : (s.settle).draws = s.draws + 1 := rfl
@[simp] theorem State.settle_unobserved (s : State) : (s.settle).unobserved = s.unobserved := rfl

/-! `State.fail` -/

@[simp] theorem State.fail_config (s : State) (e : CmdError) : (s.fail e).config = s.config := rfl
@[simp] theorem State.fail_mem (s : State) (e : CmdError) : (s.fail e).mem = s.mem := rfl
@[simp] theorem State.fail_ie (s : State) (e : CmdError) : (s.fail e).ie = s.ie := rfl
@[simp] theorem State.fail_status (s : State) (e : CmdError) : (s.fail e).status = s.status.failed e.code := rfl
@[simp] theorem State.fail_operands (s : State) (e : CmdError) : (s.fail e).operands = s.operands := rfl
@[simp] theorem State.fail_digits (s : State) (e : CmdError) : (s.fail e).digits = s.digits := rfl
@[simp] theorem State.fail_faddr (s : State) (e : CmdError) : (s.fail e).faddr = e.faddrAfter s.faddr := rfl
@[simp] theorem State.fail_h (s : State) (e : CmdError) : (s.fail e).h = s.h := rfl
@[simp] theorem State.fail_res (s : State) (e : CmdError) : (s.fail e).res = s.res := rfl
@[simp] theorem State.fail_otpBin (s : State) (e : CmdError) : (s.fail e).otpBin = s.otpBin := rfl
@[simp] theorem State.fail_otpVal (s : State) (e : CmdError) : (s.fail e).otpVal = s.otpVal := rfl
@[simp] theorem State.fail_otpStr (s : State) (e : CmdError) : (s.fail e).otpStr = s.otpStr := rfl
@[simp] theorem State.fail_otpCnt (s : State) (e : CmdError) : (s.fail e).otpCnt = s.otpCnt := rfl
@[simp] theorem State.fail_engine (s : State) (e : CmdError) : (s.fail e).engine = .idle := rfl
@[simp] theorem State.fail_sha1Work (s : State) (e : CmdError) : (s.fail e).sha1Work = some (drawSha1Work s.draws) := rfl
@[simp] theorem State.fail_usha0Work (s : State) (e : CmdError) : (s.fail e).usha0Work = some (drawUsha0Work s.draws) := rfl
@[simp] theorem State.fail_inputs (s : State) (e : CmdError) : (s.fail e).inputs = s.inputs := rfl
@[simp] theorem State.fail_reply (s : State) (e : CmdError) : (s.fail e).reply = s.reply := rfl
@[simp] theorem State.fail_draws (s : State) (e : CmdError) : (s.fail e).draws = s.draws + 1 := rfl
@[simp] theorem State.fail_unobserved (s : State) (e : CmdError) : (s.fail e).unobserved = s.unobserved := rfl

/-! `State.succeed` -/

@[simp] theorem State.succeed_config (s : State) (c : Commit) : (s.succeed c).config = s.config := rfl
@[simp] theorem State.succeed_mem (s : State) (c : Commit) : (s.succeed c).mem = s.mem := rfl
@[simp] theorem State.succeed_ie (s : State) (c : Commit) : (s.succeed c).ie = s.ie := rfl
@[simp] theorem State.succeed_status (s : State) (c : Commit) : (s.succeed c).status = s.status.succeeded := rfl
@[simp] theorem State.succeed_operands (s : State) (c : Commit) : (s.succeed c).operands = s.operands := rfl
@[simp] theorem State.succeed_digits (s : State) (c : Commit) : (s.succeed c).digits = s.digits := rfl
@[simp] theorem State.succeed_faddr (s : State) (c : Commit) : (s.succeed c).faddr = s.faddr := rfl
@[simp] theorem State.succeed_h (s : State) (c : Commit) : (s.succeed c).h = c.h.getD s.h := rfl
@[simp] theorem State.succeed_res (s : State) (c : Commit) : (s.succeed c).res = c.res.getD s.res := rfl
@[simp] theorem State.succeed_otpBin (s : State) (c : Commit) : (s.succeed c).otpBin = (c.otp.map (·.bin)).getD s.otpBin := rfl
@[simp] theorem State.succeed_otpVal (s : State) (c : Commit) : (s.succeed c).otpVal = (c.otp.map (·.val)).getD s.otpVal := rfl
@[simp] theorem State.succeed_otpStr (s : State) (c : Commit) : (s.succeed c).otpStr = (c.otp.map (·.str)).getD s.otpStr := rfl
@[simp] theorem State.succeed_otpCnt (s : State) (c : Commit) : (s.succeed c).otpCnt = c.cnt.getD s.otpCnt := rfl
@[simp] theorem State.succeed_engine (s : State) (c : Commit) : (s.succeed c).engine = .idle := rfl
@[simp] theorem State.succeed_sha1Work (s : State) (c : Commit) : (s.succeed c).sha1Work = some (drawSha1Work s.draws) := rfl
@[simp] theorem State.succeed_usha0Work (s : State) (c : Commit) : (s.succeed c).usha0Work = some (drawUsha0Work s.draws) := rfl
@[simp] theorem State.succeed_inputs (s : State) (c : Commit) : (s.succeed c).inputs = s.inputs := rfl
@[simp] theorem State.succeed_reply (s : State) (c : Commit) : (s.succeed c).reply = s.reply := rfl
@[simp] theorem State.succeed_draws (s : State) (c : Commit) : (s.succeed c).draws = s.draws + 1 := rfl
@[simp] theorem State.succeed_unobserved (s : State) (c : Commit) : (s.succeed c).unobserved = s.unobserved := rfl

/-! `State.noted` -/

@[simp] theorem State.noted_config (s : State) (i : Option Instr) (k : Checks) (r : Bool) : (s.noted i k r).config = s.config := rfl
@[simp] theorem State.noted_mem (s : State) (i : Option Instr) (k : Checks) (r : Bool) : (s.noted i k r).mem = s.mem := rfl
@[simp] theorem State.noted_ie (s : State) (i : Option Instr) (k : Checks) (r : Bool) : (s.noted i k r).ie = s.ie := rfl
@[simp] theorem State.noted_status (s : State) (i : Option Instr) (k : Checks) (r : Bool) : (s.noted i k r).status = s.status := rfl
@[simp] theorem State.noted_operands (s : State) (i : Option Instr) (k : Checks) (r : Bool) : (s.noted i k r).operands = s.operands := rfl
@[simp] theorem State.noted_digits (s : State) (i : Option Instr) (k : Checks) (r : Bool) : (s.noted i k r).digits = s.digits := rfl
@[simp] theorem State.noted_faddr (s : State) (i : Option Instr) (k : Checks) (r : Bool) : (s.noted i k r).faddr = s.faddr := rfl
@[simp] theorem State.noted_h (s : State) (i : Option Instr) (k : Checks) (r : Bool) : (s.noted i k r).h = s.h := rfl
@[simp] theorem State.noted_res (s : State) (i : Option Instr) (k : Checks) (r : Bool) : (s.noted i k r).res = s.res := rfl
@[simp] theorem State.noted_otpBin (s : State) (i : Option Instr) (k : Checks) (r : Bool) : (s.noted i k r).otpBin = s.otpBin := rfl
@[simp] theorem State.noted_otpVal (s : State) (i : Option Instr) (k : Checks) (r : Bool) : (s.noted i k r).otpVal = s.otpVal := rfl
@[simp] theorem State.noted_otpStr (s : State) (i : Option Instr) (k : Checks) (r : Bool) : (s.noted i k r).otpStr = s.otpStr := rfl
@[simp] theorem State.noted_otpCnt (s : State) (i : Option Instr) (k : Checks) (r : Bool) : (s.noted i k r).otpCnt = s.otpCnt := rfl
@[simp] theorem State.noted_engine (s : State) (i : Option Instr) (k : Checks) (r : Bool) : (s.noted i k r).engine = s.engine := rfl
@[simp] theorem State.noted_sha1Work (s : State) (i : Option Instr) (k : Checks) (r : Bool) : (s.noted i k r).sha1Work = s.sha1Work := rfl
@[simp] theorem State.noted_usha0Work (s : State) (i : Option Instr) (k : Checks) (r : Bool) : (s.noted i k r).usha0Work = s.usha0Work := rfl
@[simp] theorem State.noted_inputs (s : State) (i : Option Instr) (k : Checks) (r : Bool) : (s.noted i k r).inputs = s.inputs := rfl
@[simp] theorem State.noted_reply (s : State) (i : Option Instr) (k : Checks) (r : Bool) : (s.noted i k r).reply = s.reply := rfl
@[simp] theorem State.noted_draws (s : State) (i : Option Instr) (k : Checks) (r : Bool) : (s.noted i k r).draws = s.draws := rfl
@[simp] theorem State.noted_unobserved (s : State) (i : Option Instr) (k : Checks) (r : Bool) : (s.noted i k r).unobserved = s.unobserved ++ [⟨i, k, s.status.errcode, r⟩] := rfl

/-! `State.observedIf` -/

@[simp] theorem State.observedIf_config (s : State) (b : Bool) : (s.observedIf b).config = s.config := rfl
@[simp] theorem State.observedIf_mem (s : State) (b : Bool) : (s.observedIf b).mem = s.mem := rfl
@[simp] theorem State.observedIf_ie (s : State) (b : Bool) : (s.observedIf b).ie = s.ie := rfl
@[simp] theorem State.observedIf_status (s : State) (b : Bool) : (s.observedIf b).status = s.status := rfl
@[simp] theorem State.observedIf_operands (s : State) (b : Bool) : (s.observedIf b).operands = s.operands := rfl
@[simp] theorem State.observedIf_digits (s : State) (b : Bool) : (s.observedIf b).digits = s.digits := rfl
@[simp] theorem State.observedIf_faddr (s : State) (b : Bool) : (s.observedIf b).faddr = s.faddr := rfl
@[simp] theorem State.observedIf_h (s : State) (b : Bool) : (s.observedIf b).h = s.h := rfl
@[simp] theorem State.observedIf_res (s : State) (b : Bool) : (s.observedIf b).res = s.res := rfl
@[simp] theorem State.observedIf_otpBin (s : State) (b : Bool) : (s.observedIf b).otpBin = s.otpBin := rfl
@[simp] theorem State.observedIf_otpVal (s : State) (b : Bool) : (s.observedIf b).otpVal = s.otpVal := rfl
@[simp] theorem State.observedIf_otpStr (s : State) (b : Bool) : (s.observedIf b).otpStr = s.otpStr := rfl
@[simp] theorem State.observedIf_otpCnt (s : State) (b : Bool) : (s.observedIf b).otpCnt = s.otpCnt := rfl
@[simp] theorem State.observedIf_engine (s : State) (b : Bool) : (s.observedIf b).engine = s.engine := rfl
@[simp] theorem State.observedIf_sha1Work (s : State) (b : Bool) : (s.observedIf b).sha1Work = s.sha1Work := rfl
@[simp] theorem State.observedIf_usha0Work (s : State) (b : Bool) : (s.observedIf b).usha0Work = s.usha0Work := rfl
@[simp] theorem State.observedIf_inputs (s : State) (b : Bool) : (s.observedIf b).inputs = s.inputs := rfl
@[simp] theorem State.observedIf_reply (s : State) (b : Bool) : (s.observedIf b).reply = s.reply := rfl
@[simp] theorem State.observedIf_draws (s : State) (b : Bool) : (s.observedIf b).draws = s.draws := rfl
@[simp] theorem State.observedIf_unobserved (s : State) (b : Bool) : (s.observedIf b).unobserved = if b then [] else s.unobserved := rfl

/-! `State.memWrite` -/

@[simp] theorem State.memWrite_config (s : State) (a : Word64) (b : Byte) : (s.memWrite a b).config = s.config := rfl
@[simp] theorem State.memWrite_mem (s : State) (a : Word64) (b : Byte) : (s.memWrite a b).mem = s.mem.write a.toNat b := rfl
@[simp] theorem State.memWrite_ie (s : State) (a : Word64) (b : Byte) : (s.memWrite a b).ie = s.ie := rfl
@[simp] theorem State.memWrite_status (s : State) (a : Word64) (b : Byte) : (s.memWrite a b).status = s.status := rfl
@[simp] theorem State.memWrite_operands (s : State) (a : Word64) (b : Byte) : (s.memWrite a b).operands = s.operands := rfl
@[simp] theorem State.memWrite_digits (s : State) (a : Word64) (b : Byte) : (s.memWrite a b).digits = s.digits := rfl
@[simp] theorem State.memWrite_faddr (s : State) (a : Word64) (b : Byte) : (s.memWrite a b).faddr = s.faddr := rfl
@[simp] theorem State.memWrite_h (s : State) (a : Word64) (b : Byte) : (s.memWrite a b).h = s.h := rfl
@[simp] theorem State.memWrite_res (s : State) (a : Word64) (b : Byte) : (s.memWrite a b).res = s.res := rfl
@[simp] theorem State.memWrite_otpBin (s : State) (a : Word64) (b : Byte) : (s.memWrite a b).otpBin = s.otpBin := rfl
@[simp] theorem State.memWrite_otpVal (s : State) (a : Word64) (b : Byte) : (s.memWrite a b).otpVal = s.otpVal := rfl
@[simp] theorem State.memWrite_otpStr (s : State) (a : Word64) (b : Byte) : (s.memWrite a b).otpStr = s.otpStr := rfl
@[simp] theorem State.memWrite_otpCnt (s : State) (a : Word64) (b : Byte) : (s.memWrite a b).otpCnt = s.otpCnt := rfl
@[simp] theorem State.memWrite_engine (s : State) (a : Word64) (b : Byte) : (s.memWrite a b).engine = s.engine.afterWrite a.toNat := rfl
@[simp] theorem State.memWrite_sha1Work (s : State) (a : Word64) (b : Byte) : (s.memWrite a b).sha1Work = s.sha1Work := rfl
@[simp] theorem State.memWrite_usha0Work (s : State) (a : Word64) (b : Byte) : (s.memWrite a b).usha0Work = s.usha0Work := rfl
@[simp] theorem State.memWrite_inputs (s : State) (a : Word64) (b : Byte) : (s.memWrite a b).inputs = s.inputs := rfl
@[simp] theorem State.memWrite_reply (s : State) (a : Word64) (b : Byte) : (s.memWrite a b).reply = s.reply := rfl
@[simp] theorem State.memWrite_draws (s : State) (a : Word64) (b : Byte) : (s.memWrite a b).draws = s.draws := rfl
@[simp] theorem State.memWrite_unobserved (s : State) (a : Word64) (b : Byte) : (s.memWrite a b).unobserved = s.unobserved := rfl

/-! `State.applyReset` -/

@[simp] theorem State.applyReset_config (s : State) : (s.applyReset).config = s.config := rfl
@[simp] theorem State.applyReset_mem (s : State) : (s.applyReset).mem = s.mem := rfl
@[simp] theorem State.applyReset_ie (s : State) : (s.applyReset).ie = false := rfl
@[simp] theorem State.applyReset_status (s : State) : (s.applyReset).status = ⟨false, false, false, .eNone, 0⟩ := rfl
@[simp] theorem State.applyReset_operands (s : State) : (s.applyReset).operands = ⟨0, 0, 0, 0, 0, 0, 0, 0, 0, 0, 0, 0, 0, 0⟩ := rfl
@[simp] theorem State.applyReset_digits (s : State) : (s.applyReset).digits = 0 := rfl
@[simp] theorem State.applyReset_faddr (s : State) : (s.applyReset).faddr = 0 := rfl
@[simp] theorem State.applyReset_h (s : State) : (s.applyReset).h = .iv := rfl
@[simp] theorem State.applyReset_res (s : State) : (s.applyReset).res = Vector.replicate 16 0 := rfl
@[simp] theorem State.applyReset_otpBin (s : State) : (s.applyReset).otpBin = 0 := rfl
@[simp] theorem State.applyReset_otpVal (s : State) : (s.applyReset).otpVal = 0 := rfl
@[simp] theorem State.applyReset_otpStr (s : State) : (s.applyReset).otpStr = Vector.replicate 3 0 := rfl
@[simp] theorem State.applyReset_otpCnt (s : State) : (s.applyReset).otpCnt = 0 := rfl
@[simp] theorem State.applyReset_engine (s : State) : (s.applyReset).engine = .idle := rfl
@[simp] theorem State.applyReset_sha1Work (s : State) : (s.applyReset).sha1Work = none := rfl
@[simp] theorem State.applyReset_usha0Work (s : State) : (s.applyReset).usha0Work = none := rfl
@[simp] theorem State.applyReset_inputs (s : State) : (s.applyReset).inputs = s.inputs := rfl
@[simp] theorem State.applyReset_reply (s : State) : (s.applyReset).reply = .none := rfl
@[simp] theorem State.applyReset_draws (s : State) : (s.applyReset).draws = s.draws := rfl
@[simp] theorem State.applyReset_unobserved (s : State) : (s.applyReset).unobserved = [] := rfl

/-! Fields of STATUS. -/

@[simp] theorem Status.accepted_ovr (t : Status) (v : Word32) : (t.accepted v).ovr = t.ovr := rfl
@[simp] theorem Status.accepted_done (t : Status) (v : Word32) : (t.accepted v).done = false := rfl
@[simp] theorem Status.accepted_err (t : Status) (v : Word32) : (t.accepted v).err = false := rfl
@[simp] theorem Status.accepted_errcode (t : Status) (v : Word32) : (t.accepted v).errcode = .eNone := rfl
@[simp] theorem Status.accepted_lastop (t : Status) (v : Word32) : (t.accepted v).lastop = v.extractLsb' 0 8 := rfl
@[simp] theorem Status.failed_done (t : Status) (e : ErrCode) : (t.failed e).done = true := rfl
@[simp] theorem Status.failed_err (t : Status) (e : ErrCode) : (t.failed e).err = true := rfl
@[simp] theorem Status.failed_errcode (t : Status) (e : ErrCode) : (t.failed e).errcode = e := rfl
@[simp] theorem Status.failed_ovr (t : Status) (e : ErrCode) : (t.failed e).ovr = t.ovr := rfl
@[simp] theorem Status.failed_lastop (t : Status) (e : ErrCode) : (t.failed e).lastop = t.lastop := rfl
@[simp] theorem Status.succeeded_done (t : Status) : t.succeeded.done = true := rfl
@[simp] theorem Status.succeeded_err (t : Status) : t.succeeded.err = false := rfl
@[simp] theorem Status.succeeded_errcode (t : Status) : t.succeeded.errcode = .eNone := rfl
@[simp] theorem Status.succeeded_ovr (t : Status) : t.succeeded.ovr = t.ovr := rfl
@[simp] theorem Status.succeeded_lastop (t : Status) : t.succeeded.lastop = t.lastop := rfl
@[simp] theorem Status.overrun_ovr (t : Status) : t.overrun.ovr = true := rfl
@[simp] theorem Status.overrun_done (t : Status) : t.overrun.done = t.done := rfl
@[simp] theorem Status.overrun_err (t : Status) : t.overrun.err = t.err := rfl
@[simp] theorem Status.overrun_errcode (t : Status) : t.overrun.errcode = t.errcode := rfl
@[simp] theorem Status.overrun_lastop (t : Status) : t.overrun.lastop = t.lastop := rfl

/-! The engine phase. -/

@[simp] theorem State.busy_accept (s : State) (v : Word32) : (s.accept v).busy = true := rfl
@[simp] theorem State.busy_settle (s : State) : s.settle.busy = false := rfl
@[simp] theorem State.busy_fail (s : State) (e : CmdError) : (s.fail e).busy = false := rfl
@[simp] theorem State.busy_succeed (s : State) (c : Commit) : (s.succeed c).busy = false := rfl
@[simp] theorem State.busy_noted (s : State) (i : Option Instr) (k : Checks) (r : Bool) : (s.noted i k r).busy = s.busy := rfl
@[simp] theorem State.busy_memWrite (s : State) (a : Word64) (b : Byte) : (s.memWrite a b).busy = s.busy := by
  simp only [State.busy, State.memWrite_engine]
  cases s.engine <;> rfl
@[simp] theorem State.busy_dropWrite (s : State) : s.dropWrite.busy = s.busy := rfl

theorem State.begun_of_busy (s : State) (v : Word32) (sn : Snapshot) (racy : Bool) (h : s.engine = .busy sn racy) :
    s.begun v = s := by simp [State.begun, h]

theorem State.begun_of_idle (s : State) (v : Word32) (h : s.engine = .idle) : s.begun v = s.accept v := by
  simp [State.begun, h]

theorem State.inFlight_of_busy (s : State) (v : Word32) (sn : Snapshot) (racy : Bool) (h : s.engine = .busy sn racy) :
    s.inFlight v = (sn, racy) := by simp [State.inFlight, h]

theorem State.inFlight_of_idle (s : State) (v : Word32) (h : s.engine = .idle) :
    s.inFlight v = (s.snapshot v, false) := by simp [State.inFlight, h]

end Sys2Proof.Machine
end

