-- ==== Sys2Proof/Laws/Ops.lean ====
section
/-! SUPPORT. Everything a command can do, said once (spec/60_exceptions.md R242): each command is one `perform`, and a
`perform` ends either in `fail` or in `succeed`. -/

namespace Sys2Proof.Machine

/-- What each command commits (R122 to R124, R169, R195 to R197, R219 to R222), read off its meaning. -/
def resultOf (i : Instr) (c : Config) : Snapshot → Bytes → Bytes → Commit :=
  match i with
  | .sha1Init => fun _ _ _ => { h := some .iv }
  | .sha1Block => fun sn _ B => { h := some (sha1Compress sn.h B) }
  | .sha1 => fun _ _ M => { h := some (sha1State M), res := some (pack (sha1 M)) }
  | .usha0 => fun _ _ M => { res := some (pack (usha0 c.usha0AlignedPad M)) }
  | .hmacIpad => fun _ K _ => { res := some (pack (hmacPadxor (hmacKeynorm K) innerPad)) }
  | .hmacOpad => fun _ K _ => { res := some (pack (hmacPadxor (hmacKeynorm K) outerPad)) }
  | .hmac => fun _ K D => { res := some (pack (hmac K D)) }
  | .totpCounter => fun sn _ _ =>
    { cnt := some (otpStep sn.time sn.step), res := some (pack (otpSer (otpStep sn.time sn.step))) }
  | .otpTrunc => fun sn _ H => { otp := some (otpWriteBack (otpTrunc H) sn.digits.toNat) }
  | .hotp => fun sn K _ => otpCommit K sn.ctr sn.digits.toNat
  | .totp => fun sn K _ => otpCommit K (otpStep sn.time sn.step) sn.digits.toNat

/-- Every meaning is one `perform` of its own result. -/
theorem exec_eq_perform (i : Instr) (s : State) : exec i s = s.perform i (resultOf i s.config) := by cases i <;> rfl

theorem State.perform_of_busy (i : Instr) (f : Snapshot → Bytes → Bytes → Commit) (s : State) (sn : Snapshot)
    (racy : Bool) (h : s.engine = .busy sn racy) : s.perform i f = .next (s.completeWith i sn racy f) := by
  simp [State.perform, State.begun_of_busy s _ sn racy h, State.inFlight_of_busy s _ sn racy h]

theorem State.perform_of_idle (i : Instr) (f : Snapshot → Bytes → Bytes → Commit) (s : State) (h : s.engine = .idle) :
    s.perform i f = .next ((s.accept (encode i)).completeWith i (s.snapshot (encode i)) false f) := by
  simp [State.perform, State.begun_of_idle s _ h, State.inFlight_of_idle s _ h]

/-- A command in flight completes: its meaning is the completion with its result. -/
theorem exec_of_busy (i : Instr) (s : State) (sn : Snapshot) (racy : Bool) (h : s.engine = .busy sn racy) :
    exec i s = .next (s.completeWith i sn racy (resultOf i s.config)) := by
  rw [exec_eq_perform, State.perform_of_busy i _ s sn racy h]

/-- A completion ends in an error or in a commit of what the command writes, and enters the record as raced or not; a command
that is not raced has its validation's outcome. -/
theorem State.completeWith_cases (i : Instr) (sn : Snapshot) (racy : Bool) (f : Snapshot → Bytes → Bytes → Commit)
    (s : State) :
    let k := checksOf i sn
    let raced := racy || s.racesAhead k
    let c := f sn (s.mem.region k.key) (s.mem.region k.data)
    (∃ e, s.outcome k sn raced = some e ∧ s.completeWith i sn racy f = (s.fail e).noted (some i) k raced) ∨
      s.outcome k sn raced = none ∧
        s.completeWith i sn racy f = (s.succeed (s.results k raced c)).noted (some i) k raced := by
  intro k raced c
  cases h : s.outcome k sn raced with
  | some e => exact .inl ⟨e, rfl, by simp only [State.completeWith]; rw [h]⟩
  | none => exact .inr ⟨rfl, by simp only [State.completeWith]; rw [h]⟩

/-- What a success commits is computed, or drawn. -/
theorem State.results_cases (s : State) (k : Checks) (raced : Bool) (c : Commit) :
    s.results k raced c = c ∨ s.results k raced c = c.drawn s.draws := by
  unfold State.results; split
  · exact .inr rfl
  · exact .inl rfl

/-- A command that is not raced and fails a check ends with that error (R242). -/
theorem State.completeWith_of_error (i : Instr) (sn : Snapshot) (f : Snapshot → Bytes → Bytes → Commit) (s : State)
    (e : CmdError) (hr : s.racesAhead (checksOf i sn) = false) (h : validate s.config (checksOf i sn) sn = some e) :
    s.completeWith i sn false f = (s.fail e).noted (some i) (checksOf i sn) false := by
  simp [State.completeWith, State.outcome, hr, h]

/-- A command that is not raced and passes its checks, on memory without read side effects, commits its result (R242). -/
theorem State.completeWith_of_valid (i : Instr) (sn : Snapshot) (f : Snapshot → Bytes → Bytes → Commit) (s : State)
    (hr : s.racesAhead (checksOf i sn) = false) (h : validate s.config (checksOf i sn) sn = none)
    (hq : (checksOf i sn).meetsSideEffects s.config = false) :
    s.completeWith i sn false f =
      (s.succeed (f sn (s.mem.region (checksOf i sn).key) (s.mem.region (checksOf i sn).data))).noted (some i)
        (checksOf i sn) false := by
  simp [State.completeWith, State.outcome, State.results, hr, h, hq]

/-- Drawing changes no absence: a register the command does not write is not written (R242). -/
@[simp] theorem Commit.drawn_h_isSome (n : Nat) (c : Commit) : (c.drawn n).h.isSome = c.h.isSome := by
  simp [Commit.drawn]
@[simp] theorem Commit.drawn_res_isSome (n : Nat) (c : Commit) : (c.drawn n).res.isSome = c.res.isSome := by
  simp [Commit.drawn]
@[simp] theorem Commit.drawn_otp_isSome (n : Nat) (c : Commit) : (c.drawn n).otp.isSome = c.otp.isSome := by
  simp [Commit.drawn]
@[simp] theorem Commit.drawn_cnt_isSome (n : Nat) (c : Commit) : (c.drawn n).cnt.isSome = c.cnt.isSome := by
  simp [Commit.drawn]

/-! Which registers each command commits (R94, the "writes" column), whatever its operands; stated for arbitrary key and
data octets, so that no proof unfolds a region. -/

theorem resultOf_h_isSome (i : Instr) (c : Config) (sn : Snapshot) (K D : Bytes) :
    (resultOf i c sn K D).h.isSome =
      match i with
      | .sha1Init | .sha1Block | .sha1 => true
      | .usha0 | .hmacIpad | .hmacOpad | .hmac | .totpCounter | .otpTrunc | .hotp | .totp => false := by
  cases i <;> rfl

theorem resultOf_res_isSome (i : Instr) (c : Config) (sn : Snapshot) (K D : Bytes) :
    (resultOf i c sn K D).res.isSome =
      match i with
      | .sha1 | .usha0 | .hmacIpad | .hmacOpad | .hmac | .totpCounter | .hotp | .totp => true
      | .sha1Init | .sha1Block | .otpTrunc => false := by
  cases i <;> rfl

theorem resultOf_otp_isSome (i : Instr) (c : Config) (sn : Snapshot) (K D : Bytes) :
    (resultOf i c sn K D).otp.isSome =
      match i with
      | .otpTrunc | .hotp | .totp => true
      | .sha1Init | .sha1Block | .sha1 | .usha0 | .hmacIpad | .hmacOpad | .hmac | .totpCounter => false := by
  cases i <;> rfl

theorem resultOf_cnt_isSome (i : Instr) (c : Config) (sn : Snapshot) (K D : Bytes) :
    (resultOf i c sn K D).cnt.isSome =
      match i with
      | .totpCounter | .hotp | .totp => true
      | .sha1Init | .sha1Block | .sha1 | .usha0 | .hmacIpad | .hmacOpad | .hmac | .otpTrunc => false := by
  cases i <;> rfl

/-! A success leaves alone what its commit does not write (R242). -/

theorem State.succeed_h_of_none (s : State) (c : Commit) (hc : c.h.isSome = false) : (s.succeed c).h = s.h := by
  obtain ⟨_ | _, r, o, n⟩ := c <;> simp_all [State.succeed, State.settle, State.commit]

theorem State.succeed_res_of_none (s : State) (c : Commit) (hc : c.res.isSome = false) : (s.succeed c).res = s.res := by
  obtain ⟨h, _ | _, o, n⟩ := c <;> simp_all [State.succeed, State.settle, State.commit]

theorem State.succeed_otp_of_none (s : State) (c : Commit) (hc : c.otp.isSome = false) :
    (s.succeed c).otpBin = s.otpBin ∧ (s.succeed c).otpVal = s.otpVal ∧ (s.succeed c).otpStr = s.otpStr := by
  obtain ⟨h, r, _ | _, n⟩ := c <;> simp_all [State.succeed, State.settle, State.commit]

theorem State.succeed_cnt_of_none (s : State) (c : Commit) (hc : c.cnt.isSome = false) :
    (s.succeed c).otpCnt = s.otpCnt := by
  obtain ⟨h, r, o, _ | _⟩ := c <;> simp_all [State.succeed, State.settle, State.commit]

/-- A commit's OTP_BIN, computed or drawn, has bit 31 clear (R213; log 12). -/
theorem otpTrunc_top (H : Bytes) : (otpTrunc H).getLsbD 31 = false := by
  rw [otpTrunc, BitVec.getLsbD_append, BitVec.getLsbD_append, BitVec.getLsbD_append]
  simp

theorem resultOf_binTop (i : Instr) (c : Config) (sn : Snapshot) (K D : Bytes) (o : OtpRegs)
    (h : (resultOf i c sn K D).otp = some o) : o.bin.getLsbD 31 = false := by
  cases i <;> simp only [resultOf, otpCommit, otpWriteBack, Option.some.injEq, reduceCtorEq] at h <;> subst h <;>
    exact otpTrunc_top _

theorem drawn_binTop (n : Nat) (c : Commit) (o : OtpRegs) (h : (c.drawn n).otp = some o) :
    o.bin.getLsbD 31 = false := by
  obtain ⟨hh, r, _ | p, m⟩ := c
  · simp [Commit.drawn] at h
  · simp only [Commit.drawn, Option.map_some, Option.some.injEq] at h
    subst h
    simp [drawOtp]

theorem drawOtp_top (n : Nat) : (drawOtp n).bin.getLsbD 31 = false := by simp [drawOtp]

end Sys2Proof.Machine
end

