-- ==== Sys2Proof/Laws/Step.lean ====
section
/-! SUPPORT. Everything one step can do, said once (spec/60_exceptions.md R260). -/

namespace Sys2Proof.Machine

theorem step_nil (s : State) (h : s.inputs = []) : step s = s.complete := by simp [step, h]

theorem step_cons (s : State) (e : Event) (rest : List Event) (h : s.inputs = e :: rest) :
    step s = { s with inputs := rest }.apply e := by simp [step, h]

theorem State.complete_of_idle (s : State) (h : s.engine = .idle) : s.complete = .next s := by simp [State.complete, h]

theorem State.complete_of_command (s : State) (sn : Snapshot) (racy : Bool) (i : Instr)
    (h : s.engine = .busy sn racy) (hd : decode sn.cmd = some i) : s.complete = exec i s := by
  simp [State.complete, h, hd]

theorem State.complete_of_illegal (s : State) (sn : Snapshot) (racy : Bool) (h : s.engine = .busy sn racy)
    (hd : decode sn.cmd = none) : s.complete = .next ((s.fail .illegal).noted none {} false) := by simp [State.complete, h, hd]

/-- The engine's own step always answers a next state: it idles, ends an illegal word, or ends a command with an error or
with success; each completion is entered in the record. -/
theorem State.complete_cases (s : State) :
    (s.engine = .idle ∧ s.complete = .next s) ∨
      (∃ sn racy, s.engine = .busy sn racy ∧ decode sn.cmd = none ∧
        s.complete = .next ((s.fail .illegal).noted none {} false)) ∨
      (∃ sn racy i e, s.engine = .busy sn racy ∧ decode sn.cmd = some i ∧
        s.complete = .next ((s.fail e).noted (some i) (checksOf i sn) (racy || s.racesAhead (checksOf i sn)))) ∨
      ∃ sn racy i, s.engine = .busy sn racy ∧ decode sn.cmd = some i ∧
        s.complete = .next ((s.succeed (s.results (checksOf i sn) (racy || s.racesAhead (checksOf i sn))
            (resultOf i s.config sn (s.mem.region (checksOf i sn).key) (s.mem.region (checksOf i sn).data)))).noted (some i)
          (checksOf i sn) (racy || s.racesAhead (checksOf i sn))) := by
  cases h : s.engine with
  | idle => exact .inl ⟨rfl, s.complete_of_idle h⟩
  | busy sn racy =>
    cases hd : decode sn.cmd with
    | none => exact .inr (.inl ⟨sn, racy, rfl, hd, s.complete_of_illegal sn racy h hd⟩)
    | some i =>
      rw [s.complete_of_command sn racy i h hd, exec_of_busy i s sn racy h]
      rcases s.completeWith_cases i sn racy (resultOf i s.config) with ⟨e, -, he⟩ | ⟨-, hc⟩
      · exact .inr (.inr (.inl ⟨sn, racy, i, e, rfl, hd, by rw [he]⟩))
      · exact .inr (.inr (.inr ⟨sn, racy, i, rfl, hd, by rw [hc]⟩))

/-- One event, by its kind (R260). -/
theorem State.apply_cases (s t : State) (e : Event) (h : s.apply e = .next t) :
    (∃ a z v, e = .hostWrite a z v ∧ t = s.hostWrite a z v) ∨ (∃ a z, e = .hostRead a z ∧ t = s.hostRead a z) ∨
      (e = .hostIrq ∧ t = s.hostIrq) ∨ (e = .complete ∧ s.complete = .next t) ∨
        (∃ a b, e = .memWrite a b ∧ t = s.memWrite a b) ∨ (e = .reset ∧ t = s.applyReset) := by
  cases e <;> simp_all [State.apply, eq_comm]

/-- A host read changes only the model's own fields: the reply, the draw counter, the record of unobserved completions (R45,
R79: "No MMIO read has a side effect"; R82 item 4). -/
theorem State.hostRead_cases (s : State) (a : Nat) (z : AccessSize) :
    ∃ r n u, s.hostRead a z = { s with reply := r, draws := n, unobserved := u } := by
  unfold State.hostRead
  split
  · exact ⟨_, s.draws, s.unobserved, rfl⟩
  · split
    · exact ⟨_, s.draws, s.unobserved, rfl⟩
    · split
      · exact ⟨_, _, s.unobserved, rfl⟩
      · exact ⟨_, s.draws, _, rfl⟩

/-- A look at the interrupt output changes only the model's own fields. -/
theorem State.hostIrq_cases (s : State) : ∃ u, s.hostIrq = { s with reply := .irq s.irq, unobserved := u } := ⟨_, rfl⟩

/-- A host write is refused, hits nothing, or writes one register (R31, R33). -/
theorem State.hostWrite_cases (s : State) (a : Nat) (z : AccessSize) (v : Word32) :
    (legalOffset s.config a z = none ∧ s.hostWrite a z v = { s with reply := .busError }) ∨
      (∃ off, legalOffset s.config a z = some off ∧ regAt off = none ∧
        s.hostWrite a z v = { s with reply := .written }) ∨
        ∃ off r, legalOffset s.config a z = some off ∧ regAt off = some r ∧
          s.hostWrite a z v = { s.writeReg r v with reply := .written } := by
  unfold State.hostWrite
  cases h : legalOffset s.config a z with
  | none => exact .inl ⟨rfl, rfl⟩
  | some off =>
    cases hr : regAt off with
    | none => exact .inr (.inl ⟨off, rfl, hr, by simp [hr]⟩)
    | some r => exact .inr (.inr ⟨off, r, rfl, hr, by simp [hr]⟩)

end Sys2Proof.Machine
end

