-- ==== Sys2Proof/Laws/Mmio.lean ====
section
/-! SUPPORT. The register window: a register's own offset is legal and names it, so a host access to a register is a
read or a write of that register (spec/10_state.md R31, R32). -/

namespace Sys2Proof.Machine

theorem Reg.offset_bounds (r : Reg) : r.offset < 0x100 ∧ r.offset % 4 = 0 := by
  cases r <;> simp [Reg.offset] <;> omega

/-- Each register is found at its own offset (R32). -/
theorem regAt_offset (r : Reg) : regAt r.offset = some r := by
  cases r with
  | h k => revert k; decide
  | res k => revert k; decide
  | otpStr k => revert k; decide
  | _ => decide

/-- A 32-bit access at a register's offset is legal (R31). -/
theorem legalOffset_reg (c : Config) (r : Reg) : legalOffset c (c.mmioBase + r.offset) .word = some r.offset := by
  have := r.offset_bounds
  simp [legalOffset, windowSize]; omega

theorem State.hostWrite_reg (s : State) (r : Reg) (v : Word32) :
    s.hostWrite (s.config.mmioBase + r.offset) .word v = { s.writeReg r v with reply := .written } := by
  simp [State.hostWrite, legalOffset_reg, regAt_offset]

theorem State.hostRead_reg (s : State) (r : Reg) :
    s.hostRead (s.config.mmioBase + r.offset) .word =
      if r.isResult && s.busy then { s with reply := .data (Config.freeWord32 s.draws 0), draws := s.draws + 1 }
      else { s.observedIf (s.observes r) with reply := .data (s.readReg r) } := by
  simp [State.hostRead, legalOffset_reg, regAt_offset]

/-- A write to one register changes neither the platform, nor memory, nor any result register but H, nor the model's own
fields (R33 to R47). -/
theorem State.writeReg_frame (s : State) (r : Reg) (v : Word32) :
    (s.writeReg r v).config = s.config ∧ (s.writeReg r v).mem = s.mem ∧ (s.writeReg r v).faddr = s.faddr ∧
      (s.writeReg r v).res = s.res ∧ (s.writeReg r v).otpBin = s.otpBin ∧ (s.writeReg r v).otpVal = s.otpVal ∧
      (s.writeReg r v).otpStr = s.otpStr ∧ (s.writeReg r v).otpCnt = s.otpCnt ∧
      (s.writeReg r v).inputs = s.inputs ∧ (s.writeReg r v).draws = s.draws ∧
      (s.writeReg r v).unobserved = s.unobserved := by
  cases r <;> simp only [State.writeReg] <;> (try split) <;> simp

/-- Only a CMD write to an idle core changes the engine (R38, R240). -/
theorem State.writeReg_engine (s : State) (r : Reg) (v : Word32) :
    (s.writeReg r v).engine = s.engine ∨ (r = .cmd ∧ s.busy = false ∧ s.writeReg r v = s.accept v) := by
  cases r with
  | cmd => cases h : s.busy <;> simp [State.writeReg, h]
  | h k => cases h : s.busy <;> simp [State.writeReg, h]
  | _ => exact .inl rfl

end Sys2Proof.Machine
end

