-- ==== Sys2Proof/Laws/PerInstr.lean ====
section
/-! SUPPORT. Facts about every command as syntax, one lemma per constructor (LAWS.json). -/

/-- The command's word is well formed and splits into RSVD = 0 and its opcode (spec/30_encoding.md R90, R91). -/
def Sys2Proof.Laws.WordWellFormed.Statement (i : Sys2Proof.Instr) : Prop :=
  i.wellFormed = true ∧ (Sys2Proof.splitWord (Sys2Proof.encode i)).wellFormed = true ∧
    Sys2Proof.joinWord (Sys2Proof.splitWord (Sys2Proof.encode i)) = Sys2Proof.encode i

namespace Sys2Proof.Laws.WordWellFormed

theorem sha1Init : Statement .sha1Init := by unfold Statement; decide
theorem sha1Block : Statement .sha1Block := by unfold Statement; decide
theorem sha1 : Statement .sha1 := by unfold Statement; decide
theorem usha0 : Statement .usha0 := by unfold Statement; decide
theorem hmacIpad : Statement .hmacIpad := by unfold Statement; decide
theorem hmacOpad : Statement .hmacOpad := by unfold Statement; decide
theorem hmac : Statement .hmac := by unfold Statement; decide
theorem totpCounter : Statement .totpCounter := by unfold Statement; decide
theorem otpTrunc : Statement .otpTrunc := by unfold Statement; decide
theorem hotp : Statement .hotp := by unfold Statement; decide
theorem totp : Statement .totp := by unfold Statement; decide

end Sys2Proof.Laws.WordWellFormed
end

