-- ==== Sys2Proof/Laws/Race.lean ====
section
/-! SUPPORT. The look ahead for a racing write (spec/70_reset_and_hazards.md R274) sees what the machine will do: the three bits
it follows are the machine's, event by event, and it finds only writes the schedule holds. -/

namespace Sys2Proof.Machine

/-- A command with no operand region is never raced. -/
theorem writeAhead_of_no_region (c : Config) (k : Checks) (hk : k.key = none) (hd : k.data = none) (w : Watch)
    (es : List Event) : writeAhead c k w es = false := by
  induction es generalizing w with
  | nil => rfl
  | cons e rest ih => cases e <;> simp [writeAhead, Checks.reads, hk, hd, ih]

/-- Only the addresses the regions hold matter. -/
theorem writeAhead_congr (c : Config) (k k' : Checks) (h : ∀ a, k.reads a = k'.reads a) (w : Watch) (es : List Event) :
    writeAhead c k w es = writeAhead c k' w es := by
  induction es generalizing w with
  | nil => rfl
  | cons e rest ih => cases e <;> simp [writeAhead, h, ih]

/-- A race found is a write the schedule holds. -/
theorem writeAhead_write (c : Config) (k : Checks) (w : Watch) (es : List Event) (h : writeAhead c k w es = true) :
    ∃ a b, Event.memWrite a b ∈ es ∧ k.reads a.toNat = true := by
  induction es generalizing w with
  | nil => simp [writeAhead] at h
  | cons e rest ih =>
    have up : (∃ a b, Event.memWrite a b ∈ rest ∧ k.reads a.toNat = true) →
        ∃ a b, Event.memWrite a b ∈ e :: rest ∧ k.reads a.toNat = true :=
      fun ⟨a, b, hm, hr⟩ => ⟨a, b, List.mem_cons_of_mem _ hm, hr⟩
    cases e with
    | memWrite a b =>
      rcases Bool.or_eq_true_iff.1 h with h | h
      · exact ⟨a, b, List.mem_cons_self, h⟩
      · exact up (ih w h)
    | reset => simp [writeAhead] at h
    | _ => simp only [writeAhead, Bool.and_eq_true] at h; exact up (ih _ h.2)

/-- A host write moves the three bits as the look ahead says. -/
theorem State.hostWrite_watch (s : State) (a : Nat) (z : AccessSize) (v : Word32) :
    (s.hostWrite a z v).watch = s.watch.after s.config (.hostWrite a z v) := by
  unfold State.hostWrite
  simp only [Watch.after, accessed]
  cases legalOffset s.config a z with
  | none => rfl
  | some off =>
    cases hr : regAt off with
    | none => simp [hr, State.watch, State.busy]
    | some r =>
      simp only [Option.bind_some, hr]
      cases r <;> simp only [State.writeReg] <;> (try split) <;> simp_all [State.watch, State.busy, Status.clearBits, State.accept, State.dropWrite, Status.accepted, Status.overrun]

/-- The engine's own step moves the three bits as the look ahead says. -/
theorem State.complete_watch (s t : State) (h : s.complete = .next t) : t.watch = s.watch.after s.config .complete := by
  rcases s.complete_cases with ⟨he, h'⟩ | ⟨_, _, he, _, h'⟩ | ⟨_, _, _, _, he, _, h'⟩ | ⟨_, _, _, he, _, h'⟩ <;>
    rw [h'] at h <;> cases h <;> simp [State.watch, Watch.after, State.busy, he]

/-- A read, and a look at the interrupt output, leave the three bits. -/
theorem State.hostRead_watch (s : State) (a : Nat) (z : AccessSize) : (s.hostRead a z).watch = s.watch := by
  obtain ⟨r, n, u, h⟩ := s.hostRead_cases a z
  rw [h]; rfl

theorem State.hostIrq_watch (s : State) : s.hostIrq.watch = s.watch := by
  obtain ⟨u, h⟩ := s.hostIrq_cases
  rw [h]; rfl

/-- The record is emptied by exactly the host accesses the look ahead takes for observations. -/
theorem State.hostRead_unobserved (s : State) (a : Nat) (z : AccessSize) :
    (s.hostRead a z).unobserved = if s.watch.observes s.config (.hostRead a z) then [] else s.unobserved := by
  unfold State.hostRead Watch.observes accessed
  split
  · rename_i h; simp [h]
  · rename_i off h
    split
    · rename_i hr; simp [h, hr]
    · rename_i r hr
      have ho : (some r == some Reg.status) = (r == .status) := rfl
      simp only [h, Option.bind_some, hr, ho, State.observes]
      split
      · rename_i hb
        have : (r == Reg.status) = false := by cases r <;> simp_all [Reg.isResult]
        simp [this]
      · rfl

theorem State.hostIrq_unobserved (s : State) :
    s.hostIrq.unobserved = if s.watch.observes s.config .hostIrq then [] else s.unobserved := rfl

/-- A platform write leaves the three bits. -/
theorem State.memWrite_watch (s : State) (a : Word64) (b : Byte) : (s.memWrite a b).watch = s.watch := by
  simp [State.watch]

end Sys2Proof.Machine
end

