-- ==== Sys2Proof/Tests/Slice0.lean ====
section
/-! SUPPORT. The model's own tests: ill-formed words refused, every command's word decoded, one or two small cases a
command with values from spec/95_test_vectors.md, and for each obligation with hypotheses a state that meets them
(`witness_<obligation>`). -/

namespace Sys2Proof.Tests

open Sys2Proof Sys2Proof.Machine

/-! ### Helpers -/

/-- The state an outcome leaves. -/
def after (o : Host.Outcome State Fault Refusal) : State :=
  match o with
  | .next t => t
  | .fault _ => .reset
  | .refused _ => .reset

/-- The octets of a text of ASCII characters. -/
def ascii (t : String) : Bytes := t.toList.map fun c => BitVec.ofNat 8 c.toNat

/-- Memory with the octets `B` from address `b` on. -/
def memAt (b : Nat) (B : Bytes) : Memory := (B.zipIdx).foldl (fun m x => m.write (b + x.2) x.1) []

/-- A snapshot with every operand 0. -/
def blank : Snapshot := ⟨0, 0, 0, 0, 0, 0, 0, 0, 0, .iv⟩

/-- A core that runs a command with this snapshot. -/
def busyOn (c : Config) (m : Memory) (sn : Snapshot) (racy : Bool) : State :=
  { State.reset with config := c, mem := m, engine := .busy sn racy }

/-- The default platform with the addresses from `lo` to `hi - 1` unreadable. -/
def holeAt (lo hi : Nat) : Config := { Config.default with unreadable := [⟨lo, hi⟩] }

/-- A command run on the default platform. -/
def run (i : Instr) (m : Memory) (sn : Snapshot) : State := after (exec i (busyOn .default m { sn with cmd := encode i } false))

/-- The error code a command leaves. -/
def errorOf (i : Instr) (c : Config) (sn : Snapshot) : ErrCode := (after (exec i (busyOn c [] sn false))).status.errcode

/-- The reset state with these events pending. -/
def pending (es : List Event) : State := { State.reset with inputs := es }

/-- "12345678901234567890" (95_test_vectors 2.5). -/
def totpKey : Bytes := ascii "12345678901234567890"

/-! ### WellFormed: an ill-formed word for each check -/

theorem test_rsvd_must_be_zero :
    (⟨0x03, 1⟩ : CmdWord).rsvdZero = false ∧ (⟨0x03, 1⟩ : CmdWord).wellFormed = false := by decide
theorem test_opcode_zero_is_unassigned :
    (⟨0x00, 0⟩ : CmdWord).opcAssigned = false ∧ (⟨0x00, 0⟩ : CmdWord).wellFormed = false := by decide
theorem test_opcode_above_0B_is_unassigned :
    (⟨0x0C, 0⟩ : CmdWord).opcAssigned = false ∧ (⟨0xFF, 0⟩ : CmdWord).wellFormed = false := by decide
theorem test_lowest_and_highest_opcodes_are_well_formed :
    (⟨0x01, 0⟩ : CmdWord).wellFormed = true ∧ (⟨0x0B, 0⟩ : CmdWord).wellFormed = true := by decide

/-! ### Decode: every word of R91, bit by bit as opcode_table.json writes it -/

theorem test_decode_sha1_init : decode 0b00000000000000000000000000000001 = some .sha1Init := by decide
theorem test_decode_sha1_block : decode 0b00000000000000000000000000000010 = some .sha1Block := by decide
theorem test_decode_sha1 : decode 0b00000000000000000000000000000011 = some .sha1 := by decide
theorem test_decode_usha0 : decode 0b00000000000000000000000000000100 = some .usha0 := by decide
theorem test_decode_hmac_ipad : decode 0b00000000000000000000000000000101 = some .hmacIpad := by decide
theorem test_decode_hmac_opad : decode 0b00000000000000000000000000000110 = some .hmacOpad := by decide
theorem test_decode_hmac : decode 0b00000000000000000000000000000111 = some .hmac := by decide
theorem test_decode_totp_counter : decode 0b00000000000000000000000000001000 = some .totpCounter := by decide
theorem test_decode_otp_trunc : decode 0b00000000000000000000000000001001 = some .otpTrunc := by decide
theorem test_decode_hotp : decode 0b00000000000000000000000000001010 = some .hotp := by decide
theorem test_decode_totp : decode 0b00000000000000000000000000001011 = some .totp := by decide

/-- 95_test_vectors 2.8's illegal words, each with its reason. -/
theorem test_decode_refuses_by_name :
    decodeCmd 0x00000000 = .error .unassignedOpcode ∧ decodeCmd 0x0000000C = .error .unassignedOpcode ∧
      decodeCmd 0x00000103 = .error .reservedBits := ⟨rfl, rfl, rfl⟩

theorem test_table_words :
    Instr.all.map (fun i => decodeTableWord 32 (encode i).toNat) = Instr.all.map some ∧
      decodeTableWord 64 0x100000003 = none := by decide

/-- The very next step runs the placed word: STATUS after it says which, and that it is done (95_test_vectors: V-SHA-7, 2.8). -/
theorem test_with_fetch_word_runs_the_word :
    (after (step (State.reset.withFetchWord 32 0x01))).statusWord = 0x00010002 ∧
      (after (step (State.reset.withFetchWord 32 0x0C))).statusWord = 0x000C0106 := by decide

/-! ### Commands -/

/-- V-SHA-7. -/
theorem test_sha1_init :
    (after (exec .sha1Init { busyOn .default [] blank false with h := ⟨0, 0, 0, 0, 0⟩ })).h =
      ⟨0x67452301, 0xEFCDAB89, 0x98BADCFE, 0x10325476, 0xC3D2E1F0⟩ := by decide

/-- V-SHA-5, last row but two: the "abc" block from IV. -/
theorem test_sha1_block :
    (run .sha1Block (memAt 0x2000 (ascii "abc" ++ [0x80] ++ zeros 59 ++ [0x18])) { blank with src := 0x2000 }).h =
      ⟨0xA9993E36, 0x4706816A, 0xBA3E2571, 0x7850C26C, 0x9CD0D89D⟩ := by decide +kernel

/-- V-SHA-7: SRC = 2^64 − 63 wraps; 2^64 − 64 does not. -/
theorem test_sha1_block_range :
    errorOf .sha1Block .default { blank with src := 0xFFFFFFFFFFFFFFC1 } = .eRange ∧
      errorOf .sha1Block .default { blank with src := 0xFFFFFFFFFFFFFFC0 } = .eNone := by decide +kernel

/-- 95_test_vectors S2 as 90_conflicts C1 corrects it: the last digit is d. -/
theorem test_sha1_abc :
    ((run .sha1 (memAt 0x1000 (ascii "abc")) { blank with src := 0x1000, len := 3 }).res).toList.take 6 =
      [0xA9993E36, 0x4706816A, 0xBA3E2571, 0x7850C26C, 0x9CD0D89D, 0] := by decide +kernel

/-- V-SHA-7: LEN = 2^61 is too long, 2^61 − 1 is not (it then wraps at this SRC). -/
theorem test_sha1_len :
    errorOf .sha1 .default { blank with len := 0x2000000000000000 } = .eLen ∧
      errorOf .sha1 .default { blank with src := 0xFFFFFFFFFFFFFFFF, len := 0x1FFFFFFFFFFFFFFF } = .eRange := by
  decide +kernel

/-- V-SHA-2: W16 to W19 and W79 of the "abc" block. -/
theorem test_sha1_schedule :
    let W := sha1Schedule (sha1Pad (ascii "abc"))
    [W.getD 16 0, W.getD 17 0, W.getD 18 0, W.getD 19 0, W.getD 79 0] =
      [0xC2C4C700, 0x00000000, 0x00000030, 0x85898E01, 0x822E0879] := by decide +kernel

/-- P5: the lowest unreadable address, not the first read. -/
theorem test_usha0_bus_error :
    let t := after (exec .usha0 (busyOn (holeAt 0x2000 0x3000) [] { blank with src := 0x1FFE, len := 4 } false))
    t.status.errcode = .eBus ∧ t.faddr = 0x2000 := by decide +kernel

/-- V-U-4: words of the extender's output for 128 zero octets. -/
theorem test_usha0_extender :
    let E := usha0Extend (zeros 128)
    [extAt E 9, extAt E 10, extAt E 30, extAt E 31, extAt E 39, extAt E 42, extAt E 45, extAt E 47] =
      [0, 0x0000000062110481, 0xE06D0307E89923C3, 0x5186285652800608, 0x80C00000403100A2, 0, 0x0000000082000681,
        0xC1F62243A5B80548] := by decide +kernel

/-- V-U-6: the rows i = 5, 16 and 17. -/
theorem test_usha0_mixer :
    (let S := usha0Mix usha0Init 5 0x0123456789ABCDEF
     [S.getD 5 0, S.getD 10 0, S.getD 19 0, S.getD 26 0, S.getD 13 0] =
       [0xFA8091A2B3C4D5E6, 0, 0x30, 0xFFFFFFFFFFFFFFF9, 6]) ∧
    (let S := usha0Mix usha0Init 16 0
     [S.getD 1 0, S.getD 5 0, S.getD 16 0, S.getD 30 0] = [0, 0xFFFFFFFFFFFFFFF9, 0x0900000000000000, 0x30]) ∧
    (let S := usha0Mix usha0Init 17 0xFFFFFFFFFFFFFFFF
     [S.getD 8 0, S.getD 17 0, S.getD 22 0] = [0xC0, 0x2880000000000000, 0]) := by decide +kernel

/-- 95_test_vectors 2.3, "Jefe". -/
theorem test_hmac_ipad :
    (run .hmacIpad (memAt 0x3000 (ascii "Jefe")) { blank with key := 0x3000, klen := 4 }).res.toList =
      0x7C535053 :: List.replicate 15 0x36363636 := by decide +kernel

/-- 95_test_vectors 2.3, "Jefe". -/
theorem test_hmac_opad :
    (run .hmacOpad (memAt 0x3000 (ascii "Jefe")) { blank with key := 0x3000, klen := 4 }).res.toList =
      0x16393A39 :: List.replicate 15 0x5C5C5C5C := by decide +kernel

/-- 95_test_vectors 2.4, first row. -/
theorem test_hmac :
    (run .hmac (memAt 0x3000 (List.replicate 20 0x0B ++ ascii "Hi There"))
      { blank with key := 0x3000, klen := 20, src := 0x3014, len := 8 }).res.toList.take 6 =
      [0xB6173186, 0x55057264, 0xE28BC0B6, 0xFB378C8E, 0xF146BE00, 0] := by decide +kernel

/-- 95_test_vectors 2.8: E_RANGE on the data region wins over E_BUS on the key region. -/
theorem test_hmac_range_before_bus :
    errorOf .hmac (holeAt 0x5000 0x5001) { blank with key := 0x5000, klen := 1, src := 0xFFFFFFFFFFFFFFFF, len := 2 } =
      .eRange := by decide +kernel

/-- 95_test_vectors 2.6. -/
theorem test_totp_counter :
    let t := run .totpCounter [] { blank with time := 20000000000, step := 30 }
    t.otpCnt = 0x0000000027BC86AA ∧ t.res.toList = [0, 0x27BC86AA] ++ List.replicate 14 0 := by decide +kernel

/-- 95_test_vectors 2.7, second row: offset 15, and ten digits with a leading zero. -/
theorem test_otp_trunc :
    let t := run .otpTrunc (memAt 0x4000 ((List.range 19).map (fun i => BitVec.ofNat 8 (0xA0 + i)) ++ [0x0F]))
      { blank with src := 0x4000, digits := 10 }
    t.otpBin = 0x2FB0B1B2 ∧ t.otpStr.toList = [0x30383030, 0x31303839, 0x37380000] := by decide +kernel

/-- 95_test_vectors 2.5: C = 1, d = 10. -/
theorem test_hotp :
    let t := run .hotp (memAt 0x3000 totpKey) { blank with key := 0x3000, klen := 20, ctr := 1, digits := 10 }
    t.otpBin = 0x41397EEA ∧ t.otpStr.toList = [0x31303934, 0x32383730, 0x38320000] := by decide +kernel

/-- 95_test_vectors 2.5: d = 11 with KLEN = 2^61 is still E_DIGITS. -/
theorem test_hotp_digits_first :
    errorOf .hotp .default { blank with klen := 0x2000000000000000, digits := 11 } = .eDigits := by decide +kernel

/-- P3: TIME = 59, STEP = 30, d = 8 gives "94287082". -/
theorem test_totp :
    let t := run .totp (memAt 0x3000 totpKey) { blank with key := 0x3000, klen := 20, time := 59, step := 30, digits := 8 }
    t.otpVal = 0x059EB4EA ∧ t.otpStr.toList = [0x39343238, 0x37303832, 0] ∧ t.otpCnt = 1 := by decide +kernel

/-- 95_test_vectors 2.8: DIGITS = 0 and STEP = 0 is E_DIGITS. -/
theorem test_totp_digits_before_step : errorOf .totp .default blank = .eDigits := by decide +kernel

/-! ### The interface -/

/-- 95_test_vectors 2.8: a write of 0x0E to STATUS 0x00030406 leaves 0x00030000, a write of 0x02 leaves 0x00030404. -/
theorem test_status_acknowledge :
    let s : State := { State.reset with status := ⟨true, true, false, .eBus, 3⟩ }
    s.statusWord = 0x00030406 ∧ (s.writeReg .status 0x0000000E).statusWord = 0x00030000 ∧
      (s.writeReg .status 0x00000002).statusWord = 0x00030404 := by decide +kernel

/-- 95_test_vectors 2.8: a dropped CMD write leaves bit 3 set through the completion: 0x0003000A. -/
theorem test_dropped_command_shows_in_status :
    let s := pending [writeEvent .reset .cmd 3, writeEvent .reset .cmd 4]
    (after (step (after (step (after (step s)))))).statusWord = 0x0003000A := by decide +kernel

/-- R82 item 4, R274: a read of STATUS after completion observes it, a look at a low interrupt output does not. -/
theorem test_status_read_observes_completion :
    let run := [writeEvent .reset .cmd 1, .complete]
    let s := { after (step (after (step (pending run)))) with inputs := [readEvent .reset .status] }
    s.unobserved.length = 1 ∧ (after (step { s with inputs := [.hostIrq] })).unobserved = s.unobserved ∧
      (after (step s)).unobserved = [] := by decide +kernel

/-- R274: a write to come to one of three octets at 0x1000 races the completing command, unless the host observes the
completion in between (R82 item 4), which a STATUS read with BUSY = 1 and a look at a low interrupt output do not; a write
past the octets does not race, and writes of the host's own do not close the window. -/
theorem test_late_write_races_until_observed :
    let raced (es : List Event) := (pending es).racesAhead (checksOf .sha1 { blank with src := 0x1000, len := 3 })
    raced [.memWrite 0x1002 7] = true ∧ raced [.memWrite 0x1003 7] = false ∧
      raced [readEvent .reset .status, .memWrite 0x1002 7] = false ∧
      raced [writeEvent .reset .cmd 1, readEvent .reset .status, .memWrite 0x1002 7] = true ∧
      raced [.hostIrq, .memWrite 0x1002 7] = true ∧ raced [writeEvent .reset .ctrl 1, .hostIrq, .memWrite 0x1002 7] = false ∧
      raced [writeEvent .reset (.h 0) 9, writeEvent .reset .status 6, .memWrite 0x1002 7] = true ∧
      raced [.reset, .memWrite 0x1002 7] = false := by decide

/-- R37, R42: what the host wrote or acknowledged after the completion stays at a late write. -/
theorem test_late_write_keeps_host_writes :
    let s : State := { pending [writeEvent .reset (.h 0) 9, writeEvent .reset .status 6, .memWrite 0x1002 7] with
      status := ⟨true, true, false, .eBus, 3⟩
      unobserved := [⟨some .sha1, checksOf .sha1 { blank with src := 0x1000, len := 3 }, .eBus, true⟩] }
    let t := after (Host.Core.run Sys2Proof.core 3 s)
    t.h.h0 = 9 ∧ t.status = ⟨false, false, false, .eNone, 3⟩ ∧ t.mem.read 0x1002 = 7 := by decide +kernel

/-- R32's offsets: three of the map, and a reserved one. -/
theorem test_register_map :
    regAt 0x08C = some (.res 3) ∧ regAt 0x0D0 = some (.otpStr 2) ∧ regAt 0x048 = some .digits ∧ regAt 0x04C = none := by
  decide

/-- 95_test_vectors P1: the first transactions of `wr64 SRC, 0x1000` and `run SHA1`. -/
theorem test_host_expansion :
    expandProgram [.wr64 .src 0x1000, .run .sha1] =
      [.wr .srcLo 0x1000, .wr .srcHi 0, .wr .cmd 3, .label 2, .rd .status 0, .bnz 0 1 2] := by decide

/-- Reset memory is canonical. -/
theorem test_reset_memory_is_canonical : State.reset.mem.wf = true := by decide

/-! ### Witnesses: states that meet each obligation's hypotheses, at the ends of each clause's range -/

theorem fits_top : Fits 0xFFFFFFFFFFFFFFC0 64 := by unfold Fits; decide
theorem not_fits_top : ¬ Fits 0xFFFFFFFFFFFFFFC1 64 := by unfold Fits; decide
theorem not_fits_two : ¬ Fits 0xFFFFFFFFFFFFFFFF 2 := by unfold Fits; decide
theorem readable_default (b : Word64) (n : Nat) : Readable .default b n := fun _ _ _ => rfl
theorem quiet_default (b : Word64) (n : Nat) : NoSideEffects .default b n := fun _ _ _ => rfl

/-- With one unreadable address `a` inside the region, `a` is the lowest. -/
theorem lowest_hole (b a : Word64) (n : Nat) (h1 : b.toNat ≤ a.toNat) (h2 : a.toNat < b.toNat + n) :
    LowestUnreadable (holeAt a.toNat (a.toNat + 1)) b n a := by
  refine ⟨h1, h2, ?_, fun x _ hx => ?_⟩
  · simp [memReadable, inRanges, holeAt]
  · simp [memReadable, inRanges, holeAt]; omega

/-- A command in flight with no event pending is raced by nobody. -/
theorem unraced (i : Instr) (c : Config) (m : Memory) (sn : Snapshot) : Unraced i (busyOn c m sn false) sn := ⟨rfl, rfl⟩

/-- The engine's own step answers the state it leaves. -/
theorem complete_eq (s : State) : s.complete = .next (after s.complete) := by
  rcases s.complete_cases with ⟨-, h⟩ | ⟨_, _, -, -, h⟩ | ⟨_, _, _, _, -, -, h⟩ | ⟨_, _, _, -, -, h⟩ <;>
    simp [h, after]

/-- A step answers the state it leaves. -/
theorem step_eq (s : State) : step s = .next (after (step s)) := by
  cases h : s.inputs with
  | nil => rw [step_nil s h]; exact complete_eq s
  | cons e rest =>
    rw [step_cons s e rest h]
    cases e with
    | complete => exact complete_eq _
    | _ => rfl

/-- A command answers the state it leaves. -/
theorem exec_eq (i : Instr) (s : State) : exec i s = .next (after (exec i s)) := by rw [exec_eq_perform]; rfl

theorem witness_StepRunsTheCommandInFlight :
    (∃ (s : State) (sn : Snapshot), s.engine = .busy sn false ∧ decode sn.cmd = some .totp ∧ s.inputs = .complete :: [.reset]) ∧
      ∃ (s : State) (sn : Snapshot), s.engine = .busy sn true ∧ decode sn.cmd = some .sha1 ∧ s.inputs = [] :=
  ⟨⟨{ busyOn .default [] { blank with cmd := 0x0B } false with inputs := [.complete, .reset] }, { blank with cmd := 0x0B },
    rfl, by decide, rfl⟩,
   ⟨busyOn .default [] { blank with cmd := 0x03 } true, { blank with cmd := 0x03 }, rfl, by decide, rfl⟩⟩

theorem witness_IdleCmdWriteIsAccepted :
    ∃ (s : State) (v : Word32), s.inputs = [writeEvent s .cmd v] ∧ s.engine = .idle :=
  ⟨pending [writeEvent .reset .cmd 0xFFFFFFFF], 0xFFFFFFFF, rfl, rfl⟩

theorem witness_BusyCmdWriteIsDropped :
    ∃ (s : State) (v : Word32) (sn : Snapshot), s.inputs = [writeEvent s .cmd v] ∧ s.engine = .busy sn false :=
  ⟨{ busyOn .default [] blank false with inputs := [writeEvent .reset .cmd 3] }, 3, blank, rfl, rfl⟩

theorem witness_IllegalWordEndsInError :
    (∃ (s : State) (sn : Snapshot), s.engine = .busy sn false ∧ sn.cmd.extractLsb' 0 8 = 0#8) ∧
      (∃ (s : State) (sn : Snapshot), s.engine = .busy sn false ∧ (sn.cmd.extractLsb' 0 8).toNat = 0x0C) ∧
      ∃ (s : State) (sn : Snapshot), s.engine = .busy sn false ∧ sn.cmd.extractLsb' 0 8 = 3#8 ∧ sn.cmd.extractLsb' 8 24 ≠ 0#24 :=
  ⟨⟨busyOn .default [] blank false, blank, rfl, by decide⟩,
   ⟨busyOn .default [] { blank with cmd := 0x0C } false, { blank with cmd := 0x0C }, rfl, by decide⟩,
   ⟨busyOn .default [] { blank with cmd := 0x103 } false, { blank with cmd := 0x103 }, rfl, by decide, by decide⟩⟩

theorem witness_IdleCommandIsAcceptedThenCompleted : ∃ s : State, s.engine = .idle := ⟨.reset, rfl⟩

theorem witness_Sha1InitLoadsTheInitialValue : ∃ (s : State) (sn : Snapshot), s.engine = .busy sn false :=
  ⟨busyOn .default [] blank false, blank, rfl⟩

/-- The shared conditions of the commands that read a data region of fixed length, met at both ends. -/
theorem witness_Sha1BlockCompressesOneBlock :
    (∃ (s : State) (sn : Snapshot), Unraced .sha1Block s sn ∧ ¬ Fits sn.src 64) ∧
      (∃ (s : State) (sn : Snapshot) (a : Word64), Unraced .sha1Block s sn ∧ Fits sn.src 64 ∧
        LowestUnreadable s.config sn.src 64 a) ∧
      ∃ (s : State) (sn : Snapshot), Unraced .sha1Block s sn ∧ Fits sn.src 64 ∧ Readable s.config sn.src 64 ∧
        NoSideEffects s.config sn.src 64 :=
  ⟨⟨busyOn .default [] { blank with src := 0xFFFFFFFFFFFFFFC1 } false, { blank with src := 0xFFFFFFFFFFFFFFC1 }, unraced _ _ _ _,
    not_fits_top⟩,
   ⟨busyOn (holeAt 0xFFFFFFFFFFFFFFFF 0x10000000000000000) [] { blank with src := 0xFFFFFFFFFFFFFFC0 } false,
    { blank with src := 0xFFFFFFFFFFFFFFC0 }, 0xFFFFFFFFFFFFFFFF, unraced _ _ _ _, fits_top, lowest_hole _ _ _ (by decide) (by decide)⟩,
   ⟨busyOn .default [] { blank with src := 0xFFFFFFFFFFFFFFC0 } false, { blank with src := 0xFFFFFFFFFFFFFFC0 }, unraced _ _ _ _,
    fits_top, readable_default _ _, quiet_default _ _⟩⟩

/-- The clauses of a command that reads LEN octets at SRC: too long, wrapping, unreadable, the longest legal. -/
def DataClausesMet (i : Instr) : Prop :=
  (∃ (s : State) (sn : Snapshot), Unraced i s sn ∧ sn.len.toNat = 2 ^ 61) ∧
    (∃ (s : State) (sn : Snapshot), Unraced i s sn ∧ sn.len.toNat ≤ 2 ^ 61 - 1 ∧
      ¬ Fits sn.src sn.len.toNat) ∧
    (∃ (s : State) (sn : Snapshot) (a : Word64), Unraced i s sn ∧ sn.len.toNat ≤ 2 ^ 61 - 1 ∧
      Fits sn.src sn.len.toNat ∧ LowestUnreadable s.config sn.src sn.len.toNat a) ∧
    ∃ (s : State) (sn : Snapshot), Unraced i s sn ∧ sn.len.toNat = 2 ^ 61 - 1 ∧ Fits sn.src sn.len.toNat ∧
      Readable s.config sn.src sn.len.toNat ∧ NoSideEffects s.config sn.src sn.len.toNat

theorem dataClausesMet (i : Instr) : DataClausesMet i :=
  ⟨⟨busyOn .default [] { blank with len := 0x2000000000000000 } false, { blank with len := 0x2000000000000000 }, unraced _ _ _ _,
    by decide⟩,
   ⟨busyOn .default [] { blank with src := 0xFFFFFFFFFFFFFFFF, len := 2 } false,
    { blank with src := 0xFFFFFFFFFFFFFFFF, len := 2 }, unraced _ _ _ _, by decide, not_fits_two⟩,
   ⟨busyOn (holeAt 0x2000 0x2001) [] { blank with src := 0x1FFE, len := 4 } false, { blank with src := 0x1FFE, len := 4 },
    0x2000, unraced _ _ _ _, by decide, by unfold Fits; decide, lowest_hole _ _ _ (by decide) (by decide)⟩,
   ⟨busyOn .default [] { blank with len := 0x1FFFFFFFFFFFFFFF } false, { blank with len := 0x1FFFFFFFFFFFFFFF }, unraced _ _ _ _,
    by decide, by unfold Fits; decide, readable_default _ _, quiet_default _ _⟩⟩

theorem witness_Sha1DigestsTheMessage : DataClausesMet .sha1 := dataClausesMet _

theorem witness_Usha0DigestsTheMessage : DataClausesMet .usha0 := dataClausesMet _

/-- The clauses of a command that reads a key: too long, wrapping, unreadable, the longest legal. -/
def KeyClausesMet (i : Instr) : Prop :=
  (∃ (s : State) (sn : Snapshot), Unraced i s sn ∧ sn.klen.toNat = 2 ^ 61) ∧
    (∃ (s : State) (sn : Snapshot), Unraced i s sn ∧ sn.klen.toNat ≤ 2 ^ 61 - 1 ∧
      ¬ Fits sn.key sn.klen.toNat) ∧
    (∃ (s : State) (sn : Snapshot) (a : Word64), Unraced i s sn ∧ sn.klen.toNat ≤ 2 ^ 61 - 1 ∧
      Fits sn.key sn.klen.toNat ∧ LowestUnreadable s.config sn.key sn.klen.toNat a) ∧
    ∃ (s : State) (sn : Snapshot), Unraced i s sn ∧ sn.klen.toNat = 2 ^ 61 - 1 ∧ Fits sn.key sn.klen.toNat ∧
      Readable s.config sn.key sn.klen.toNat ∧ NoSideEffects s.config sn.key sn.klen.toNat

theorem keyClausesMet (i : Instr) : KeyClausesMet i :=
  ⟨⟨busyOn .default [] { blank with klen := 0x2000000000000000 } false, { blank with klen := 0x2000000000000000 }, unraced _ _ _ _,
    by decide⟩,
   ⟨busyOn .default [] { blank with key := 0xFFFFFFFFFFFFFFFF, klen := 2 } false,
    { blank with key := 0xFFFFFFFFFFFFFFFF, klen := 2 }, unraced _ _ _ _, by decide, not_fits_two⟩,
   ⟨busyOn (holeAt 0x2000 0x2001) [] { blank with key := 0x1FFE, klen := 4 } false, { blank with key := 0x1FFE, klen := 4 },
    0x2000, unraced _ _ _ _, by decide, by unfold Fits; decide, lowest_hole _ _ _ (by decide) (by decide)⟩,
   ⟨busyOn .default [] { blank with klen := 0x1FFFFFFFFFFFFFFF } false, { blank with klen := 0x1FFFFFFFFFFFFFFF }, unraced _ _ _ _,
    by decide, by unfold Fits; decide, readable_default _ _, quiet_default _ _⟩⟩

theorem witness_HmacIpadGivesTheInnerKeyBlock : KeyClausesMet .hmacIpad := keyClausesMet _

theorem witness_HmacOpadGivesTheOuterKeyBlock : KeyClausesMet .hmacOpad := keyClausesMet _

theorem witness_HmacAuthenticatesTheData :
    (∃ (s : State) (sn : Snapshot), Unraced .hmac s sn ∧ sn.len.toNat = 2 ^ 61 - 64) ∧
      (∃ (s : State) (sn : Snapshot), Unraced .hmac s sn ∧ sn.klen.toNat ≤ 2 ^ 61 - 1 ∧ sn.len.toNat ≤ 2 ^ 61 - 65 ∧
        ¬ Fits sn.src sn.len.toNat) ∧
      (∃ (s : State) (sn : Snapshot) (a : Word64), Unraced .hmac s sn ∧ sn.klen.toNat ≤ 2 ^ 61 - 1 ∧
        sn.len.toNat ≤ 2 ^ 61 - 65 ∧ Fits sn.key sn.klen.toNat ∧ Fits sn.src sn.len.toNat ∧
        LowestUnreadable s.config sn.key sn.klen.toNat a) ∧
      (∃ (s : State) (sn : Snapshot) (a : Word64), Unraced .hmac s sn ∧ sn.klen.toNat ≤ 2 ^ 61 - 1 ∧
        sn.len.toNat ≤ 2 ^ 61 - 65 ∧ Fits sn.key sn.klen.toNat ∧ Fits sn.src sn.len.toNat ∧
        Readable s.config sn.key sn.klen.toNat ∧ LowestUnreadable s.config sn.src sn.len.toNat a) ∧
      ∃ (s : State) (sn : Snapshot), Unraced .hmac s sn ∧ sn.klen.toNat ≤ 2 ^ 61 - 1 ∧ sn.len.toNat = 2 ^ 61 - 65 ∧
        Fits sn.key sn.klen.toNat ∧ Fits sn.src sn.len.toNat ∧ Readable s.config sn.key sn.klen.toNat ∧
        Readable s.config sn.src sn.len.toNat ∧ NoSideEffects s.config sn.key sn.klen.toNat ∧
        NoSideEffects s.config sn.src sn.len.toNat :=
  ⟨⟨busyOn .default [] { blank with len := 0x1FFFFFFFFFFFFFC0 } false, { blank with len := 0x1FFFFFFFFFFFFFC0 }, unraced _ _ _ _,
    by decide⟩,
   ⟨busyOn .default [] { blank with src := 0xFFFFFFFFFFFFFFFF, len := 2 } false,
    { blank with src := 0xFFFFFFFFFFFFFFFF, len := 2 }, unraced _ _ _ _, by decide, by decide, not_fits_two⟩,
   ⟨busyOn (holeAt 0x2000 0x2001) [] { blank with key := 0x1FFE, klen := 4 } false, { blank with key := 0x1FFE, klen := 4 },
    0x2000, unraced _ _ _ _, by decide, by decide, by unfold Fits; decide, by unfold Fits; decide,
    lowest_hole _ _ _ (by decide) (by decide)⟩,
   ⟨busyOn (holeAt 0x2000 0x2001) [] { blank with src := 0x1FFE, len := 4 } false, { blank with src := 0x1FFE, len := 4 },
    0x2000, unraced _ _ _ _, by decide, by decide, by unfold Fits; decide, by unfold Fits; decide, fun a _ h => absurd h (by
      have : (0 : Word64).toNat = 0 := rfl
      simp only [blank] at h ⊢; omega), lowest_hole _ _ _ (by decide) (by decide)⟩,
   ⟨busyOn .default [] { blank with len := 0x1FFFFFFFFFFFFFBF } false, { blank with len := 0x1FFFFFFFFFFFFFBF }, unraced _ _ _ _,
    by decide, by decide, by unfold Fits; decide, by unfold Fits; decide, readable_default _ _, readable_default _ _,
    quiet_default _ _, quiet_default _ _⟩⟩

theorem witness_TotpCounterDividesTimeByStep :
    (∃ (s : State) (sn : Snapshot), s.engine = .busy sn false ∧ sn.step = 0) ∧
      ∃ (s : State) (sn : Snapshot), s.engine = .busy sn false ∧ sn.step ≠ 0 :=
  ⟨⟨busyOn .default [] blank false, blank, rfl, rfl⟩,
   ⟨busyOn .default [] { blank with step := 1 } false, { blank with step := 1 }, rfl, by decide⟩⟩

theorem witness_OtpTruncReducesTheBytes :
    (∃ (s : State) (sn : Snapshot), Unraced .otpTrunc s sn ∧ 10 < sn.digits.toNat) ∧
      (∃ (s : State) (sn : Snapshot), Unraced .otpTrunc s sn ∧ sn.digits.toNat = 1 ∧ ¬ Fits sn.src 20) ∧
      (∃ (s : State) (sn : Snapshot) (a : Word64), Unraced .otpTrunc s sn ∧ sn.digits.toNat = 1 ∧ Fits sn.src 20 ∧
        LowestUnreadable s.config sn.src 20 a) ∧
      ∃ (s : State) (sn : Snapshot), Unraced .otpTrunc s sn ∧ sn.digits.toNat = 10 ∧ Fits sn.src 20 ∧
        Readable s.config sn.src 20 ∧ NoSideEffects s.config sn.src 20 :=
  ⟨⟨busyOn .default [] { blank with digits := 11 } false, { blank with digits := 11 }, unraced _ _ _ _, by decide⟩,
   ⟨busyOn .default [] { blank with digits := 1, src := 0xFFFFFFFFFFFFFFED } false,
    { blank with digits := 1, src := 0xFFFFFFFFFFFFFFED }, unraced _ _ _ _, by decide, by unfold Fits; decide⟩,
   ⟨busyOn (holeAt 19 20) [] { blank with digits := 1 } false, { blank with digits := 1 }, 19, unraced _ _ _ _, by decide,
    by unfold Fits; decide, lowest_hole _ _ _ (by decide) (by decide)⟩,
   ⟨busyOn .default [] { blank with digits := 10, src := 0xFFFFFFFFFFFFFFEC } false,
    { blank with digits := 10, src := 0xFFFFFFFFFFFFFFEC }, unraced _ _ _ _, by decide, by unfold Fits; decide,
    readable_default _ _, quiet_default _ _⟩⟩

theorem witness_HotpGivesTheCounterPassword :
    (∃ (s : State) (sn : Snapshot), Unraced .hotp s sn ∧ sn.digits.toNat < 1) ∧
      (∃ (s : State) (sn : Snapshot), Unraced .hotp s sn ∧ sn.digits.toNat = 10 ∧ sn.klen.toNat = 2 ^ 61) ∧
      (∃ (s : State) (sn : Snapshot), Unraced .hotp s sn ∧ sn.digits.toNat = 1 ∧ sn.klen.toNat ≤ 2 ^ 61 - 1 ∧
        ¬ Fits sn.key sn.klen.toNat) ∧
      (∃ (s : State) (sn : Snapshot) (a : Word64), Unraced .hotp s sn ∧ sn.digits.toNat = 1 ∧
        sn.klen.toNat ≤ 2 ^ 61 - 1 ∧ Fits sn.key sn.klen.toNat ∧ LowestUnreadable s.config sn.key sn.klen.toNat a) ∧
      ∃ (s : State) (sn : Snapshot), Unraced .hotp s sn ∧ sn.digits.toNat = 10 ∧ sn.klen.toNat = 2 ^ 61 - 1 ∧
        Fits sn.key sn.klen.toNat ∧ Readable s.config sn.key sn.klen.toNat ∧ NoSideEffects s.config sn.key sn.klen.toNat :=
  ⟨⟨busyOn .default [] blank false, blank, unraced _ _ _ _, by decide⟩,
   ⟨busyOn .default [] { blank with digits := 10, klen := 0x2000000000000000 } false,
    { blank with digits := 10, klen := 0x2000000000000000 }, unraced _ _ _ _, by decide, by decide⟩,
   ⟨busyOn .default [] { blank with digits := 1, key := 0xFFFFFFFFFFFFFFFF, klen := 2 } false,
    { blank with digits := 1, key := 0xFFFFFFFFFFFFFFFF, klen := 2 }, unraced _ _ _ _, by decide, by decide, not_fits_two⟩,
   ⟨busyOn (holeAt 0x2000 0x2001) [] { blank with digits := 1, key := 0x1FFE, klen := 4 } false,
    { blank with digits := 1, key := 0x1FFE, klen := 4 }, 0x2000, unraced _ _ _ _, by decide, by decide, by unfold Fits; decide,
    lowest_hole _ _ _ (by decide) (by decide)⟩,
   ⟨busyOn .default [] { blank with digits := 10, klen := 0x1FFFFFFFFFFFFFFF } false,
    { blank with digits := 10, klen := 0x1FFFFFFFFFFFFFFF }, unraced _ _ _ _, by decide, by decide, by unfold Fits; decide,
    readable_default _ _, quiet_default _ _⟩⟩

theorem witness_TotpGivesTheTimePassword :
    (∃ (s : State) (sn : Snapshot), Unraced .totp s sn ∧ 10 < sn.digits.toNat) ∧
      (∃ (s : State) (sn : Snapshot), Unraced .totp s sn ∧ sn.digits.toNat = 10 ∧ sn.step = 0) ∧
      (∃ (s : State) (sn : Snapshot), Unraced .totp s sn ∧ sn.digits.toNat = 1 ∧ sn.step ≠ 0 ∧
        sn.klen.toNat = 2 ^ 61) ∧
      (∃ (s : State) (sn : Snapshot), Unraced .totp s sn ∧ sn.digits.toNat = 1 ∧ sn.step ≠ 0 ∧
        sn.klen.toNat ≤ 2 ^ 61 - 1 ∧ ¬ Fits sn.key sn.klen.toNat) ∧
      (∃ (s : State) (sn : Snapshot) (a : Word64), Unraced .totp s sn ∧ sn.digits.toNat = 1 ∧ sn.step ≠ 0 ∧
        sn.klen.toNat ≤ 2 ^ 61 - 1 ∧ Fits sn.key sn.klen.toNat ∧ LowestUnreadable s.config sn.key sn.klen.toNat a) ∧
      ∃ (s : State) (sn : Snapshot), Unraced .totp s sn ∧ sn.digits.toNat = 10 ∧ sn.step ≠ 0 ∧
        sn.klen.toNat = 2 ^ 61 - 1 ∧ Fits sn.key sn.klen.toNat ∧ Readable s.config sn.key sn.klen.toNat ∧
        NoSideEffects s.config sn.key sn.klen.toNat :=
  ⟨⟨busyOn .default [] { blank with digits := 11 } false, { blank with digits := 11 }, unraced _ _ _ _, by decide⟩,
   ⟨busyOn .default [] { blank with digits := 10 } false, { blank with digits := 10 }, unraced _ _ _ _, by decide, rfl⟩,
   ⟨busyOn .default [] { blank with digits := 1, step := 1, klen := 0x2000000000000000 } false,
    { blank with digits := 1, step := 1, klen := 0x2000000000000000 }, unraced _ _ _ _, by decide, by decide, by decide⟩,
   ⟨busyOn .default [] { blank with digits := 1, step := 1, key := 0xFFFFFFFFFFFFFFFF, klen := 2 } false,
    { blank with digits := 1, step := 1, key := 0xFFFFFFFFFFFFFFFF, klen := 2 }, unraced _ _ _ _, by decide, by decide, by decide,
    not_fits_two⟩,
   ⟨busyOn (holeAt 0x2000 0x2001) [] { blank with digits := 1, step := 1, key := 0x1FFE, klen := 4 } false,
    { blank with digits := 1, step := 1, key := 0x1FFE, klen := 4 }, 0x2000, unraced _ _ _ _, by decide, by decide, by decide,
    by unfold Fits; decide, lowest_hole _ _ _ (by decide) (by decide)⟩,
   ⟨busyOn .default [] { blank with digits := 10, step := 1, klen := 0x1FFFFFFFFFFFFFFF } false,
    { blank with digits := 10, step := 1, klen := 0x1FFFFFFFFFFFFFFF }, unraced _ _ _ _, by decide, by decide, by decide,
    by unfold Fits; decide, readable_default _ _, quiet_default _ _⟩⟩

theorem witness_FailedCommandCommitsNothing :
    (∃ (s t : State) (sn : Snapshot), s.engine = .busy sn false ∧ s.inputs = [] ∧ step s = .next t ∧ t.status.err = true) ∧
      ∃ (s t : State) (sn : Snapshot), s.engine = .busy sn true ∧ s.inputs = [.complete, .reset] ∧ step s = .next t ∧
        t.status.err = true :=
  ⟨⟨busyOn .default [] { blank with cmd := 0x0B } false, _, { blank with cmd := 0x0B }, rfl, rfl, step_eq _,
    by decide +kernel⟩,
   ⟨{ busyOn .default [] blank true with inputs := [.complete, .reset] }, _, blank, rfl, rfl, step_eq _,
    by decide +kernel⟩⟩

/-- Both outcomes, and commands on each side of every "writes" clause. -/
theorem witness_CommandsWriteOnlyTheirRegisters :
    (∃ (s t : State) (sn : Snapshot), s.engine = .busy sn false ∧ exec .otpTrunc s = .next t ∧ ¬ WritesH .otpTrunc ∧
        ¬ WritesRes .otpTrunc ∧ ¬ WritesCnt .otpTrunc ∧ t.status.errcode ≠ .eBus) ∧
      ∃ (s t : State) (sn : Snapshot), s.engine = .busy sn false ∧ exec .sha1 s = .next t ∧ ¬ WritesOtp .sha1 ∧
        t.status.errcode = .eBus :=
  ⟨⟨busyOn .default [] { blank with digits := 1 } false, _, { blank with digits := 1 }, rfl, exec_eq _ _,
    id, id, id, by decide +kernel⟩,
   ⟨busyOn (holeAt 0 1) [] { blank with len := 1 } false, _, { blank with len := 1 }, rfl, exec_eq _ _, id,
    by decide +kernel⟩⟩

theorem witness_RacyCommandOutcomeIsFree :
    (∃ (s : State) (sn : Snapshot), s.engine = .busy sn true) ∧
      ∃ (s : State) (sn : Snapshot), s.engine = .busy sn false ∧ s.racesAhead (checksOf .sha1Block sn) = true :=
  ⟨⟨busyOn .default [] blank true, blank, rfl⟩,
   ⟨{ busyOn .default [] blank false with inputs := [.memWrite 63 1] }, blank, rfl, by decide⟩⟩

/-- HMAC with key [0x1000, 0x1004) and data [0x2000, 0x2008): a write to the last key octet makes it racy, one past the data
does not; and one to the first data octet still to come races it, unless the host reads STATUS first. -/
theorem witness_PlatformWriteIntoARegionRaces :
    let sn : Snapshot := { blank with cmd := 0x07, key := 0x1000, klen := 4, src := 0x2000, len := 8 }
    (∃ s : State, s.inputs = [.memWrite 0x1003 1] ∧ s.mem.wf = true ∧ s.engine = .busy sn false ∧
        decode sn.cmd = some .hmac ∧ InOperandRegion .hmac sn 0x1003) ∧
      (∃ s : State, s.inputs = [.memWrite 0x2008 1] ∧ s.engine = .busy sn true ∧ ¬ InOperandRegion .hmac sn 0x2008) ∧
      (∃ s : State, s.inputs = [.memWrite 0x2000 1] ∧ s.engine = .idle) ∧
      (∃ s t : State, s.engine = .busy sn false ∧ exec .hmac s = .next t ∧ s.racesAhead (checksOf .hmac sn) = true) ∧
      ∃ s t : State, s.engine = .busy sn false ∧ exec .hmac s = .next t ∧ s.racesAhead (checksOf .hmac sn) = false ∧
        t.inputs = [readEvent s .status, .memWrite 0x2000 1] := by
  intro sn
  refine ⟨⟨{ busyOn .default [] sn false with inputs := [.memWrite 0x1003 1] }, rfl, by decide, rfl, by decide,
      .inl ⟨trivial, by decide, by decide⟩⟩,
    ⟨{ busyOn .default [] sn true with inputs := [.memWrite 0x2008 1] }, rfl, rfl, ?_⟩,
    ⟨pending [.memWrite 0x2000 1], rfl, rfl⟩,
    ⟨{ busyOn .default [] sn false with inputs := [.memWrite 0x2000 1] }, _, rfl, exec_eq _ _, by decide⟩,
    ⟨{ busyOn .default [] sn false with inputs := [readEvent .reset .status, .memWrite 0x2000 1] }, _, rfl, exec_eq _ _,
      by decide, ?_⟩⟩
  · rintro (⟨-, h⟩ | h) <;> revert h <;> decide
  all_goals decide +kernel

/-- Two busy cores with different memories and differently written but equal readability. -/
theorem witness_OutcomeDependsOnSnapshotAndReadability :
    ∃ (s s' t t' : State) (sn : Snapshot), Unraced .sha1 s sn ∧ Unraced .sha1 s' sn ∧
      (∀ a, a < 2 ^ 64 → memReadable s.config a = memReadable s'.config a) ∧ exec .sha1 s = .next t ∧
      exec .sha1 s' = .next t' ∧ s.mem ≠ s'.mem ∧ s.config ≠ s'.config ∧ t.status.errcode = .eBus :=
  ⟨busyOn (holeAt 0 2) [] { blank with len := 1 } false,
   busyOn { Config.default with unreadable := [⟨1, 2⟩, ⟨0, 1⟩] } [(0, 1)] { blank with len := 1 } false, _, _,
   { blank with len := 1 }, unraced _ _ _ _, unraced _ _ _ _,
   fun a _ => by
    simp only [busyOn, memReadable, holeAt, inRanges, List.any_cons, List.any_nil]
    rw [Bool.eq_iff_iff]; simp; omega,
   exec_eq _ _, exec_eq _ _, by decide, by decide, by decide +kernel⟩

theorem witness_CompletionReadsTheSnapshot :
    (∃ (s t : State) (sn : Snapshot), s.engine = .busy sn false ∧ exec .sha1Init s = .next t ∧ WritesH .sha1Init ∧
        t.status.err = false) ∧
      (∃ (s t : State) (sn : Snapshot), s.engine = .busy sn false ∧ exec .sha1Block s = .next t ∧
        t.status.err = true) ∧
      ∃ (s t : State) (sn : Snapshot), s.engine = .busy sn true ∧ exec .totp s = .next t ∧ ¬ WritesH .totp :=
  ⟨⟨busyOn .default [] blank false, _, blank, rfl, exec_eq _ _, trivial, by decide +kernel⟩,
   ⟨busyOn (holeAt 0 1) [] blank false, _, blank, rfl, exec_eq _ _, by decide +kernel⟩,
   ⟨busyOn .default [] blank true, _, blank, rfl, exec_eq _ _, id⟩⟩

theorem witness_UnlistedOperandsCannotMatter :
    ∃ a b : Snapshot, SameListed .hotp a b ∧ a.src ≠ b.src ∧ a.time ≠ b.time ∧ a.h ≠ b.h :=
  ⟨blank, { blank with src := 1, len := 2, time := 3, step := 4, h := ⟨1, 1, 1, 1, 1⟩ }, ⟨rfl, rfl, rfl, rfl⟩, by decide,
    by decide, by decide⟩

theorem witness_NoWorkingStateIsCarriedOver :
    ∃ s t : State, step s = .next t ∧ s.sha1Work ≠ none :=
  ⟨{ busyOn .default [] { blank with cmd := 1 } false with sha1Work := some (drawSha1Work 7) }, _, step_eq _, by simp⟩

theorem witness_TotpIsHotpOfTheTimeStep :
    ∃ (s : State) (sn : Snapshot) (ctr : Word64), sn.step ≠ 0 ∧ ctr.toNat = sn.time.toNat / sn.step.toNat ∧
      s.racesAhead (checksOf .totp sn) = false :=
  ⟨.reset, { blank with time := 59, step := 30 }, 1, by decide, by decide, rfl⟩

/-- An illegal word completes while an earlier SHA1 of one octet at 5, not raced, is unobserved: a write to 6 is to come, and
one to 5 only after a read of STATUS. -/
theorem witness_EveryStepKeepsTheInvariant :
    ∃ s t : State, s.Inv ∧ step s = .next t ∧ s.busy = true ∧ t.busy = false ∧ s.unobserved.map (·.raced) = [false] :=
  ⟨{ busyOn .default [(3, 7)] { blank with cmd := 0x100 } false with
      inputs := [.complete, .memWrite 6 1, readEvent .reset .status, .memWrite 5 1]
      unobserved := [⟨some .sha1, checksOf .sha1 { blank with src := 5, len := 1 }, .eNone, false⟩] }, _,
    ⟨by decide, by simp [Status.errMatchesCode, busyOn, State.reset, State.resetWith],
      by simp [State.busyStatus, busyOn, State.reset, State.resetWith], by decide, by
      intro c hc _
      obtain rfl := List.mem_singleton.1 hc
      decide⟩,
    step_eq _, rfl, by decide +kernel, rfl⟩

theorem witness_ResetMeetsTheInvariant : ∃ m : Memory, m ≠ [] ∧ m.wf = true :=
  ⟨[(0, 1), (0xFFFFFFFFFFFFFFFF, 2)], by decide, by decide⟩

theorem witness_OnlyPlatformWritesChangeMemory : ∃ s t : State, step s = .next t ∧ t.mem ≠ s.mem ∧ s.mem.wf = true :=
  ⟨pending [.memWrite 0xFFFFFFFFFFFFFFFF 5], _, step_eq _, by decide +kernel, by decide⟩

theorem witness_FaddrChangesOnlyOnBusErrorOrReset :
    (∃ s t : State, step s = .next t ∧ t.faddr ≠ s.faddr ∧ s.busy = true) ∧
      ∃ s t : State, step s = .next t ∧ t.faddr ≠ s.faddr ∧ s.inputs = [.reset] :=
  ⟨⟨busyOn (holeAt 9 10) [] { blank with cmd := 3, len := 10 } false, _, step_eq _, by decide +kernel, rfl⟩,
   ⟨{ pending [.reset] with faddr := 1 }, _, step_eq _, by decide +kernel, rfl⟩⟩

theorem witness_BusyChangesOnlyAtLifecycleEvents :
    (∃ s t : State, step s = .next t ∧ t.busy ≠ s.busy ∧ s.busy = false) ∧
      (∃ s t : State, step s = .next t ∧ t.busy ≠ s.busy ∧ s.inputs = []) ∧
      ∃ s t : State, step s = .next t ∧ t.busy ≠ s.busy ∧ s.inputs = [.reset] :=
  ⟨⟨pending [writeEvent .reset .cmd 0], _, step_eq _, by decide +kernel, rfl⟩,
   ⟨busyOn .default [] blank false, _, step_eq _, by decide +kernel, rfl⟩,
   ⟨{ busyOn .default [] blank false with inputs := [.reset] }, _, step_eq _, by decide +kernel, rfl⟩⟩

theorem witness_IdleCoreKeepsEveryRegister : ∃ s : State, s.engine = .idle ∧ s.inputs = [] := ⟨.reset, rfl, rfl⟩

theorem witness_ResetRestoresEveryRegister :
    ∃ s : State, s.inputs = [.reset] ∧ s.busy = true ∧ IsOperandReg .srcLo ∧ IsOperandReg .stepHi :=
  ⟨{ busyOn .default [] blank false with inputs := [.reset] }, rfl, rfl, by simp [IsOperandReg], by simp [IsOperandReg]⟩

theorem witness_ResetStateHoldsTheResetValues : ∃ r : Reg, r ≠ .id ∧ ∀ k, r ≠ .h k := ⟨.status, by decide, by decide⟩

theorem witness_RegisterMapIsExact :
    ReservedOffset 0x04C ∧ ReservedOffset 0x07C ∧ ReservedOffset 0x0DC ∧ ReservedOffset 0x0FC ∧ ¬ ReservedOffset 0x0D8 ∧
      ¬ ReservedOffset 0x080 := by
  unfold ReservedOffset; decide

/-- Accesses that are refused at each condition's edge, and the first and last legal ones. -/
theorem witness_IllegalAccessGetsABusError :
    let legal := fun (addr : Nat) (size : AccessSize) => size = .word ∧ 0x4000 ≤ addr ∧ addr < 0x4000 + 0x100 ∧
      (addr - 0x4000) % 4 = 0
    ¬ legal 0x4000 .half ∧ ¬ legal 0x3FFC .word ∧ ¬ legal 0x4100 .word ∧ ¬ legal 0x4002 .word ∧ legal 0x4000 .word ∧
      legal 0x40FC .word := by decide

theorem witness_ReservedAndReadOnlyIgnoreWrites :
    (∃ (s : State) (v : Word32), s.inputs = [.hostWrite (s.config.mmioBase + 0x0FC) .word v] ∧ ReservedOffset 0x0FC) ∧
      (∃ s : State, s.inputs = [.hostRead (s.config.mmioBase + 0x04C) .word] ∧ ReservedOffset 0x04C) ∧
      ∃ (s : State) (r : Reg) (v : Word32), IsReadOnlyReg r ∧ s.inputs = [writeEvent s r v] :=
  ⟨⟨pending [.hostWrite 0x0FC .word 9], 9, rfl, by unfold ReservedOffset; decide⟩,
   ⟨pending [.hostRead 0x04C .word], rfl, by unfold ReservedOffset; decide⟩,
   ⟨pending [writeEvent .reset (.res 15) 9], .res 15, 9, trivial, rfl⟩⟩

theorem witness_StatusWriteClearsW1cBits : ∃ (s : State) (v : Word32), s.inputs = [writeEvent s .status v] :=
  ⟨pending [writeEvent .reset .status 0xE], 0xE, rfl⟩

theorem witness_CtrlHoldsTheInterruptEnable :
    (∃ (s : State) (v : Word32), s.inputs = [writeEvent s .ctrl v]) ∧ ∃ s : State, s.inputs = [readEvent s .ctrl] :=
  ⟨⟨pending [writeEvent .reset .ctrl 0xFFFFFFFE], 0xFFFFFFFE, rfl⟩, ⟨pending [readEvent .reset .ctrl], rfl⟩⟩

theorem witness_OperandWriteReadsBack :
    (∃ (s : State) (r : Reg) (v : Word32), s.inputs = [writeEvent s r v] ∧ IsOperandReg r) ∧
      ∃ (s : State) (v : Word32), s.inputs = [writeEvent s .digits v] :=
  ⟨⟨pending [writeEvent .reset .klenHi 0xFFFFFFFF], .klenHi, 0xFFFFFFFF, rfl, by simp [IsOperandReg]⟩,
   ⟨pending [writeEvent .reset .digits 0x1FF], 0x1FF, rfl⟩⟩

theorem witness_StateWordsAreWrittenOnlyWhenIdle :
    (∃ (s : State) (v : Word32), s.inputs = [writeEvent s (.h 4) v] ∧ s.busy = false) ∧
      ∃ (s : State) (v : Word32), s.inputs = [writeEvent s (.h 0) v] ∧ s.busy = true :=
  ⟨⟨pending [writeEvent .reset (.h 4) 1], 1, rfl, rfl⟩,
   ⟨{ busyOn .default [] blank false with inputs := [writeEvent .reset (.h 0) 1] }, 1, rfl, rfl⟩⟩

/-- A read while busy, a read of a result while idle, a STATUS read that observes completion, and a look at the interrupt
output with it high and low. -/
theorem witness_ValidReadsGiveTheValue :
    (∃ (s : State) (r : Reg), s.inputs = [readEvent s r] ∧ s.busy = true ∧ r.isResult = false) ∧
      (∃ (s : State) (r : Reg), s.inputs = [readEvent s r] ∧ s.busy = false ∧ r.isResult = true) ∧
      (∃ s : State, s.inputs = [readEvent s .status] ∧ s.busy = false ∧ s.unobserved ≠ []) ∧
      (∃ s : State, s.inputs = [.hostIrq] ∧ s.irq = true) ∧ ∃ s : State, s.inputs = [.hostIrq] ∧ s.irq = false :=
  ⟨⟨{ busyOn .default [] blank false with inputs := [readEvent .reset .status] }, .status, rfl, rfl, rfl⟩,
   ⟨pending [readEvent .reset .faddrHi], .faddrHi, rfl, rfl, rfl⟩,
   ⟨{ pending [readEvent .reset .status] with unobserved := [⟨none, {}, .eIllegal, false⟩] }, rfl, rfl, by simp⟩,
   ⟨{ pending [.hostIrq] with ie := true, status := ⟨true, false, false, .eNone, 1⟩ }, rfl, rfl⟩,
   ⟨pending [.hostIrq], rfl, rfl⟩⟩

theorem witness_BusyResultReadHasNoSideEffect :
    ∃ (s : State) (r : Reg), s.inputs = [readEvent s r] ∧ s.busy = true ∧ r = .res 15 :=
  ⟨{ busyOn .default [] blank false with inputs := [readEvent .reset (.res 15)] }, .res 15, rfl, rfl, rfl⟩

theorem witness_InterruptFollowsEnableAndDone :
    (∃ s t : State, s.busy = true ∧ s.inputs = [] ∧ step s = .next t ∧ s.ie = true) ∧
      (∃ (s t : State) (v : Word32), step s = .next t ∧ s.inputs = [writeEvent s .ctrl v] ∧ s.status.done = true) ∧
      (∃ (s t : State) (v : Word32), step s = .next t ∧ s.inputs = [writeEvent s .status v] ∧ v.getLsbD 1 = true) ∧
      (∃ (s t : State) (v : Word32), step s = .next t ∧ s.inputs = [writeEvent s .cmd v] ∧ s.busy = false) ∧
      ∃ s t : State, step s = .next t ∧ s.inputs = [.reset] :=
  ⟨⟨{ busyOn .default [] blank true with ie := true }, _, rfl, rfl, step_eq _, rfl⟩,
   ⟨{ pending [writeEvent .reset .ctrl 1] with status := ⟨true, false, false, .eNone, 3⟩ }, _, 1, step_eq _, rfl, rfl⟩,
   ⟨pending [writeEvent .reset .status 2], _, 2, step_eq _, rfl, by decide⟩,
   ⟨pending [writeEvent .reset .cmd 0], _, 0, step_eq _, rfl, rfl⟩, ⟨pending [.reset], _, step_eq _, rfl⟩⟩

theorem witness_Sha1ScheduleRecurrence : (∃ t, t < 16 ∧ t = 15) ∧ ∃ t, 16 ≤ t ∧ t < 80 ∧ t = 79 :=
  ⟨⟨15, by decide, rfl⟩, ⟨79, by decide, by decide, rfl⟩⟩

/-- The empty message, padded by the host at 0x1000: one octet 0x80 and 63 zeros. -/
theorem witness_ChainedBlocksReproduceSha1 :
    let s : State := { State.reset with mem := [(0x1000, 0x80)] }
    s.engine = .idle ∧ Fits 0x1000 (sha1Pad []).length ∧ Readable s.config 0x1000 (sha1Pad []).length ∧
      NoSideEffects s.config 0x1000 (sha1Pad []).length ∧ s.mem.bytes 0x1000 (sha1Pad []).length = sha1Pad [] ∧
      (chainEvents s 0x1000 ((sha1Pad []).length / 64)).length = 6 ∧ ∃ k, 1 ≤ k ∧ k ≤ 6 :=
  ⟨rfl, by unfold Fits; decide, readable_default _ _, quiet_default _ _, by decide +kernel, by decide, 6, by decide,
    by decide⟩

theorem witness_Usha0PaddingFillsChunks :
    usha0PadZeros false 120 = 0 ∧ usha0PadZeros false 121 = 127 ∧ usha0PadZeros true 119 = 1 ∧
      usha0PadZeros true 120 = 128 := by decide

/-- Two chunks that differ in their first eight octets only. -/
theorem witness_ExtenderWord0PassesThrough :
    ∃ C C' : Bytes, (∀ i, 8 ≤ i → byteAt C i = byteAt C' i) ∧ C ≠ C' :=
  ⟨[1], [], fun i hi => by simp [byteAt, show ¬ i < 1 by omega], by decide⟩

theorem witness_MixerWritesOnlyItsWords :
    usha0Init.length = 32 ∧ 31 ∉ mixerWrites 0 ∧ 7 ∉ mixerWrites 1 ∧ 0 ∉ mixerWrites 16 ∧ 0 ∉ mixerWrites 31 := by decide

theorem witness_TrailingZerosDoNotChangeTheKey : ∃ (K : Bytes) (n : Nat), K.length + n = 64 ∧ 0 < n :=
  ⟨[1, 2], 62, rfl, by decide⟩

theorem witness_DecimalStringSpellsTheValue : ∃ v d : Nat, v < 10 ^ d ∧ d = 10 ∧ v = 2147483647 :=
  ⟨2147483647, 10, by decide, rfl, rfl⟩

theorem witness_ResultPackingIsBigEndian :
    (∃ (B : Bytes) (j : Nat), B.length % 4 = 0 ∧ j < 4 ∧ B.length = 64) ∧ ∃ (z : Bytes) (j : Nat), z.length ≤ 10 ∧ j < 4 ∧
      z.length = 10 :=
  ⟨⟨zeros 64, 3, by decide, by decide, by decide⟩, ⟨zeros 10, 3, by decide, by decide, by decide⟩⟩

theorem witness_HostStatementsAreTransactions :
    (∃ (p : HostRun) (r : Reg) (v : Word32), p.prog[p.at_]? = some (.wr r v)) ∧
      ∃ (p : HostRun) (r : Reg) (k : Nat), p.prog[p.at_]? = some (.rd r k) ∧ (p.core.busy = true → r.isResult = false) :=
  ⟨⟨.start [.wr .cmd 3] .reset, .cmd, 3, rfl⟩, ⟨.start [.rd .status 0] (busyOn .default [] blank false), .status, 0, rfl,
    fun _ => rfl⟩⟩

end Sys2Proof.Tests
end

/-! PROOFS. The statements about the registers, the register window and what every step keeps (spec/10_state.md). First the
rules their proofs share: how a step takes its event, and what each event leaves unchanged. -/

namespace Sys2Proof.Machine

/-! ### What one step leaves unchanged -/

/-- A step is the engine's own, with no event pending, or it takes the first event. -/
theorem step_cases (s t : State) (h : step s = .next t) :
    (s.inputs = [] ∧ s.complete = .next t) ∨
      ∃ e rest, s.inputs = e :: rest ∧ State.apply e { s with inputs := rest } = .next t := by
  cases hi : s.inputs with
  | nil => exact .inl ⟨rfl, step_nil s hi ▸ h⟩
  | cons e rest => exact .inr ⟨e, rest, rfl, step_cons s e rest hi ▸ h⟩

/-- A host write changes neither the platform, nor memory, nor FADDR, nor OTP_BIN, nor the schedule and the record of
completions. -/
theorem State.hostWrite_frame (s : State) (a : Nat) (z : AccessSize) (v : Word32) :
    (s.hostWrite a z v).config = s.config ∧ (s.hostWrite a z v).mem = s.mem ∧ (s.hostWrite a z v).faddr = s.faddr ∧
      (s.hostWrite a z v).otpBin = s.otpBin ∧ (s.hostWrite a z v).inputs = s.inputs ∧
      (s.hostWrite a z v).unobserved = s.unobserved := by
  rcases s.hostWrite_cases a z v with ⟨-, h⟩ | ⟨_, -, -, h⟩ | ⟨_, r, -, -, h⟩ <;> rw [h]
  · exact ⟨rfl, rfl, rfl, rfl, rfl, rfl⟩
  · exact ⟨rfl, rfl, rfl, rfl, rfl, rfl⟩
  · obtain ⟨hc, hm, hf, -, hb, -, -, -, hi, -, hu⟩ := s.writeReg_frame r v
    exact ⟨hc, hm, hf, hb, hi, hu⟩

/-- A completion changes neither the platform nor the schedule. -/
theorem State.complete_frame (s t : State) (h : s.complete = .next t) : t.config = s.config ∧ t.inputs = s.inputs := by
  rcases s.complete_cases with ⟨-, hc⟩ | ⟨_, _, -, -, hc⟩ | ⟨_, _, _, _, -, -, hc⟩ | ⟨_, _, _, -, -, hc⟩ <;>
    cases hc.symm.trans h <;> exact ⟨rfl, rfl⟩

/-- No event changes the platform, nor the schedule beyond it. -/
theorem State.apply_frame (s t : State) (e : Event) (h : s.apply e = .next t) :
    t.config = s.config ∧ t.inputs = s.inputs := by
  rcases s.apply_cases t e h with ⟨a, z, v, -, rfl⟩ | ⟨a, z, -, rfl⟩ | ⟨-, rfl⟩ | ⟨-, hc⟩ | ⟨_, _, -, rfl⟩ | ⟨-, rfl⟩
  · obtain ⟨hc, -, -, -, hi, -⟩ := s.hostWrite_frame a z v
    exact ⟨hc, hi⟩
  · obtain ⟨_, _, _, hr⟩ := s.hostRead_cases a z
    simp [hr]
  · exact ⟨rfl, rfl⟩
  · exact s.complete_frame t hc
  · exact ⟨rfl, rfl⟩
  · exact ⟨rfl, rfl⟩

/-- Every event but a reset moves BUSY, DONE and IE as the look ahead says (R82 item 4). -/
theorem State.apply_watch (s t : State) (e : Event) (h : s.apply e = .next t) (he : e ≠ .reset) :
    t.watch = s.watch.after s.config e := by
  rcases s.apply_cases t e h with
    ⟨a, z, v, rfl, rfl⟩ | ⟨a, z, rfl, rfl⟩ | ⟨rfl, rfl⟩ | ⟨rfl, hc⟩ | ⟨a, b, rfl, rfl⟩ | ⟨rfl, -⟩
  · exact s.hostWrite_watch a z v
  · exact s.hostRead_watch a z
  · exact s.hostIrq_watch
  · exact s.complete_watch t hc
  · exact s.memWrite_watch a b
  · exact absurd rfl he

/-! ### The registers' part of the invariant -/

/-- The invariant without its clause on the schedule. -/
structure State.RegInv (s : State) : Prop where
  memWf     : s.mem.wf = true
  errCode   : s.status.errMatchesCode
  busyClear : s.busyStatus
  binTop    : s.otpBin.getLsbD 31 = false

theorem State.inv_iff (s : State) : s.Inv ↔ s.RegInv ∧ s.raceSeen :=
  ⟨fun h => ⟨⟨h.memWf, h.errCode, h.busyClear, h.binTop⟩, h.raceSeen⟩,
   fun ⟨h, hr⟩ => ⟨h.memWf, h.errCode, h.busyClear, h.binTop, hr⟩⟩

/-- It speaks of memory, STATUS, the engine and OTP_BIN only. -/
theorem State.RegInv.congr {s t : State} (h : s.RegInv) (hm : t.mem = s.mem) (hs : t.status = s.status)
    (he : t.engine = s.engine) (hb : t.otpBin = s.otpBin) : t.RegInv where
  memWf := hm ▸ h.memWf
  errCode := hs ▸ h.errCode
  busyClear := by simpa only [State.busyStatus, hs, he] using h.busyClear
  binTop := hb ▸ h.binTop

theorem State.busyStatus_of_idle (s : State) (h : s.engine = .idle) : s.busyStatus := by simp [State.busyStatus, h]

/-- Other flags that keep ERR with ERRCODE, and DONE, ERR and LASTOP clear or as they were, keep the invariant. -/
theorem State.RegInv.withStatus {s : State} (h : s.RegInv) (u : Status) (he : u.errMatchesCode)
    (hd : s.status.done = false → u.done = false) (hr : s.status.err = false → u.err = false)
    (hl : u.lastop = s.status.lastop) : ({ s with status := u } : State).RegInv where
  memWf := h.memWf
  errCode := he
  busyClear := by
    have hb := h.busyClear
    unfold State.busyStatus at hb ⊢
    cases hs : s.engine with
    | idle => trivial
    | busy sn racy =>
      simp only [hs] at hb
      obtain ⟨hdone, herr, hlast⟩ := hb
      exact ⟨hd hdone, hr herr, hl.trans hlast⟩
  binTop := h.binTop

theorem Status.errMatchesCode_clearBits (t : Status) (v : Word32) (h : t.errMatchesCode) :
    (t.clearBits v).errMatchesCode := by
  unfold Status.errMatchesCode at h ⊢
  cases hv : v.getLsbD 2 <;> simp only [Status.clearBits, hv] <;> simp [h]

theorem State.RegInv.accept {s : State} (h : s.RegInv) (v : Word32) : (s.accept v).RegInv where
  memWf := h.memWf
  errCode := by simp [Status.errMatchesCode]
  busyClear := by simp [State.busyStatus, State.snapshot]
  binTop := h.binTop

theorem State.RegInv.dropWrite {s : State} (h : s.RegInv) : s.dropWrite.RegInv :=
  h.withStatus s.status.overrun h.errCode id id rfl

theorem State.RegInv.writeReg {s : State} (h : s.RegInv) (r : Reg) (v : Word32) : (s.writeReg r v).RegInv := by
  cases r with
  | status =>
    exact h.withStatus (s.status.clearBits v) (s.status.errMatchesCode_clearBits v h.errCode)
      (fun hd => by simp [Status.clearBits, hd]) (fun he => by simp [Status.clearBits, he]) rfl
  | cmd =>
    cases hb : s.busy with
    | true => simpa [State.writeReg, hb] using h.dropWrite
    | false => simpa [State.writeReg, hb] using h.accept v
  | h k =>
    cases hb : s.busy with
    | true => simpa [State.writeReg, hb] using h.dropWrite
    | false => simpa [State.writeReg, hb] using h.congr (t := { s with h := s.h.put k v }) rfl rfl rfl rfl
  | _ => exact h.congr rfl rfl rfl rfl

theorem State.RegInv.hostWrite {s : State} (h : s.RegInv) (a : Nat) (z : AccessSize) (v : Word32) :
    (s.hostWrite a z v).RegInv := by
  rcases s.hostWrite_cases a z v with ⟨-, hw⟩ | ⟨_, -, -, hw⟩ | ⟨_, r, -, -, hw⟩ <;> rw [hw]
  · exact h.congr rfl rfl rfl rfl
  · exact h.congr rfl rfl rfl rfl
  · exact (h.writeReg r v).congr rfl rfl rfl rfl

theorem State.RegInv.memWrite {s : State} (h : s.RegInv) (a : Word64) (b : Byte) : (s.memWrite a b).RegInv where
  memWf := s.mem.write_wf a b h.memWf
  errCode := h.errCode
  busyClear := by
    have hb := h.busyClear
    unfold State.busyStatus at hb ⊢
    cases hs : s.engine <;> simp_all [Engine.afterWrite]
  binTop := h.binTop

/-- Bit 31 of the OTP_BIN a success commits is 0, computed or drawn (R44; log 12). -/
theorem State.results_binTop (s : State) (i : Instr) (k : Checks) (raced : Bool) (sn : Snapshot) (K D : Bytes)
    (h : s.otpBin.getLsbD 31 = false) :
    (s.succeed (s.results k raced (resultOf i s.config sn K D))).otpBin.getLsbD 31 = false := by
  rw [State.succeed_otpBin]
  cases ho : (s.results k raced (resultOf i s.config sn K D)).otp with
  | none => exact h
  | some o =>
    rcases s.results_cases k raced (resultOf i s.config sn K D) with hr | hr <;> rw [hr] at ho
    · exact resultOf_binTop i s.config sn K D o ho
    · exact drawn_binTop s.draws _ o ho

theorem State.RegInv.complete {s t : State} (h : s.RegInv) (ht : s.complete = .next t) : t.RegInv := by
  rcases s.complete_cases with ⟨-, hc⟩ | ⟨_, _, -, -, hc⟩ | ⟨_, _, _, e, -, -, hc⟩ | ⟨_, _, i, -, -, hc⟩ <;>
    cases hc.symm.trans ht
  · exact h
  · exact ⟨h.memWf, by simp [Status.errMatchesCode, CmdError.code], State.busyStatus_of_idle _ rfl, h.binTop⟩
  · exact ⟨h.memWf, by simp [Status.errMatchesCode, e.code_ne_none], State.busyStatus_of_idle _ rfl, h.binTop⟩
  · exact ⟨h.memWf, by simp [Status.errMatchesCode], State.busyStatus_of_idle _ rfl,
      s.results_binTop i _ _ _ _ _ h.binTop⟩

/-- The reset of a platform with canonical memory meets it. -/
theorem State.resetWith_regInv (c : Config) (m : Memory) (inputs : List Event) (n : Nat) (h : m.wf = true) :
    (State.resetWith c m inputs n).RegInv :=
  ⟨h, by simp [Status.errMatchesCode, State.resetWith], State.busyStatus_of_idle _ rfl, by simp [State.resetWith]⟩

theorem State.RegInv.apply {s t : State} (h : s.RegInv) (e : Event) (ht : s.apply e = .next t) : t.RegInv := by
  rcases s.apply_cases t e ht with ⟨a, z, v, -, rfl⟩ | ⟨a, z, -, rfl⟩ | ⟨-, rfl⟩ | ⟨-, hc⟩ | ⟨a, b, -, rfl⟩ | ⟨-, rfl⟩
  · exact h.hostWrite a z v
  · obtain ⟨_, _, _, hr⟩ := s.hostRead_cases a z
    rw [hr]
    exact h.congr rfl rfl rfl rfl
  · exact h.congr rfl rfl rfl rfl
  · exact h.complete hc
  · exact h.memWrite a b
  · exact State.resetWith_regInv _ _ _ _ h.memWf

/-! ### Every race is drawn -/

/-- The look ahead goes on past an event that shows the host nothing. -/
theorem writeAhead_tail (c : Config) (k : Checks) (w : Watch) (e : Event) (rest : List Event)
    (h : writeAhead c k w (e :: rest) = false) (he : e ≠ .reset) (ho : w.observes c e = false) :
    writeAhead c k (w.after c e) rest = false := by
  cases e with
  | memWrite a b => exact (Bool.or_eq_false_iff.1 h).2
  | reset => exact absurd rfl he
  | _ => simpa [writeAhead, ho] using h

/-- A completion adds to the record only a command raced by no write to come, unless it is marked as raced (R274). -/
theorem State.complete_unobserved (s t : State) (h : s.complete = .next t) (c : Completed) (hc : c ∈ t.unobserved) :
    c ∈ s.unobserved ∨ (c.raced = false → writeAhead t.config c.checks t.watch t.inputs = false) := by
  rcases s.complete_cases with ⟨-, ht⟩ | ⟨_, _, -, -, ht⟩ | ⟨sn, racy, i, e, -, -, ht⟩ | ⟨sn, racy, i, -, -, ht⟩ <;>
    cases ht.symm.trans h
  · exact .inl hc
  · refine (List.mem_append.1 hc).imp id fun hm _ => ?_
    rw [List.mem_singleton.1 hm]
    exact writeAhead_of_no_region _ _ rfl rfl _ _
  all_goals
    refine (List.mem_append.1 hc).imp id fun hm hr => ?_
    rw [List.mem_singleton.1 hm] at hr ⊢
    exact (Bool.or_eq_false_iff.1 hr).2

/-- After an event, a completion on record was on record before, and the event neither showed the host a completion nor was a
reset; or it has just ended, and then no write to come races it unless it is marked as raced. -/
theorem State.apply_unobserved (s t : State) (e : Event) (h : s.apply e = .next t) (c : Completed)
    (hc : c ∈ t.unobserved) :
    (c ∈ s.unobserved ∧ e ≠ .reset ∧ s.watch.observes s.config e = false) ∨
      (c.raced = false → writeAhead t.config c.checks t.watch t.inputs = false) := by
  rcases s.apply_cases t e h with
    ⟨a, z, v, rfl, rfl⟩ | ⟨a, z, rfl, rfl⟩ | ⟨rfl, rfl⟩ | ⟨rfl, ht⟩ | ⟨a, b, rfl, rfl⟩ | ⟨rfl, rfl⟩
  · obtain ⟨-, -, -, -, -, hu⟩ := s.hostWrite_frame a z v
    exact .inl ⟨hu ▸ hc, nofun, rfl⟩
  · rw [State.hostRead_unobserved] at hc
    split at hc
    case isTrue => simp at hc
    case isFalse ho => exact .inl ⟨hc, nofun, Bool.eq_false_of_not_eq_true ho⟩
  · rw [State.hostIrq_unobserved] at hc
    split at hc
    case isTrue => simp at hc
    case isFalse ho => exact .inl ⟨hc, nofun, Bool.eq_false_of_not_eq_true ho⟩
  · exact (s.complete_unobserved t ht c hc).imp_left fun hm => ⟨hm, nofun, rfl⟩
  · exact .inl ⟨hc, nofun, rfl⟩
  · simp at hc

/-- Taking an event keeps every race drawn: the look ahead from the next state is the rest of the one from this. -/
theorem State.apply_keeps_raceSeen (s t : State) (e : Event) (rest : List Event) (hi : s.inputs = e :: rest)
    (h : State.apply e { s with inputs := rest } = .next t) (hr : s.raceSeen) : t.raceSeen := by
  intro c hc hraced
  rcases State.apply_unobserved _ t e h c hc with ⟨hm, he, ho⟩ | hnew
  · have hahead := hr c hm hraced
    obtain ⟨hconfig, hinputs⟩ := State.apply_frame _ t e h
    rw [hi] at hahead
    rw [hconfig, hinputs, State.apply_watch _ t e h he]
    exact writeAhead_tail _ _ _ e rest hahead he ho
  · exact hnew hraced

/-- With no event pending there is no write to come. -/
theorem State.raceSeen_of_no_inputs (s : State) (h : s.inputs = []) : s.raceSeen := by
  intro c _ _
  rw [h]
  rfl

/-- Settles O29: the registers' part of the invariant operation by operation, and the clause on races by the look ahead's
own recursion on the schedule. -/
theorem everyStepKeepsTheInvariant : Obligations.EveryStepKeepsTheInvariant := by
  unfold Obligations.EveryStepKeepsTheInvariant
  intro s t hs h
  obtain ⟨hreg, hrace⟩ := s.inv_iff.1 hs
  rw [t.inv_iff]
  rcases step_cases s t h with ⟨hi, hc⟩ | ⟨e, rest, hi, ha⟩
  · obtain ⟨-, hinputs⟩ := s.complete_frame t hc
    exact ⟨hreg.complete hc, t.raceSeen_of_no_inputs (hinputs.trans hi)⟩
  · exact ⟨(hreg.congr rfl rfl rfl rfl : State.RegInv { s with inputs := rest }).apply e ha,
      s.apply_keeps_raceSeen t e rest hi ha hrace⟩

/-- Settles O30: nothing is in flight or on record after reset. -/
theorem resetMeetsTheInvariant : Obligations.ResetMeetsTheInvariant := by
  have key (c : Config) (m : Memory) (inputs : List Event) (n : Nat) (hm : m.wf = true) :
      (State.resetWith c m inputs n).Inv :=
    (State.inv_iff _).2 ⟨State.resetWith_regInv c m inputs n hm, fun _ hc => by simp [State.resetWith] at hc⟩
  exact ⟨key .default [] [] 0 rfl, key⟩

end Sys2Proof.Machine


/-! ### What only a completion, a CMD write or a reset changes -/

namespace Sys2Proof.Machine

/-! A host access, case by case (R31, R33, R45). -/

section
variable {s : State} {a : Nat} {z : AccessSize} {off : Nat} {r : Reg}

theorem State.hostWrite_of_illegal (h : legalOffset s.config a z = none) (v : Word32) :
    s.hostWrite a z v = { s with reply := .busError } := by simp only [State.hostWrite, h]

theorem State.hostWrite_of_reserved (h : legalOffset s.config a z = some off) (hr : regAt off = none) (v : Word32) :
    s.hostWrite a z v = { s with reply := .written } := by simp only [State.hostWrite, h, hr]

theorem State.hostWrite_of_reg (h : legalOffset s.config a z = some off) (hr : regAt off = some r) (v : Word32) :
    s.hostWrite a z v = { s.writeReg r v with reply := .written } := by simp only [State.hostWrite, h, hr]

theorem State.hostRead_of_illegal (h : legalOffset s.config a z = none) :
    s.hostRead a z = { s with reply := .busError } := by simp only [State.hostRead, h]

theorem State.hostRead_of_reserved (h : legalOffset s.config a z = some off) (hr : regAt off = none) :
    s.hostRead a z = { s with reply := .data 0 } := by simp only [State.hostRead, h, hr]

theorem State.hostRead_of_free (h : legalOffset s.config a z = some off) (hr : regAt off = some r)
    (hf : (r.isResult && s.busy) = true) :
    s.hostRead a z = { s with reply := .data (Config.freeWord32 s.draws 0), draws := s.draws + 1 } := by
  simp only [State.hostRead, h, hr, hf, if_true]

theorem State.hostRead_of_valid (h : legalOffset s.config a z = some off) (hr : regAt off = some r)
    (hv : (r.isResult && s.busy) = false) :
    s.hostRead a z = { s.observedIf (s.observes r) with reply := .data (s.readReg r) } := by
  simp only [State.hostRead, h, hr, hv, Bool.false_eq_true, if_false]

end

theorem regAt_eq_some_iff (off : Nat) (r : Reg) : regAt off = some r ↔ r.offset = off :=
  ⟨fun h => by simpa using List.find?_some h, fun h => h ▸ regAt_offset r⟩

/-- The access of R31: 32 bits wide, in the window, at a multiple of 4. -/
theorem legalOffset_eq_some_iff (c : Config) (a : Nat) (z : AccessSize) (off : Nat) :
    legalOffset c a z = some off ↔ z = .word ∧ a = c.mmioBase + off ∧ off < windowSize ∧ off % 4 = 0 := by
  unfold legalOffset
  split
  case isTrue h =>
    obtain ⟨hz, hlo, hhi, hal⟩ := h
    simp only [Option.some.injEq]
    constructor
    · rintro rfl
      exact ⟨hz, by omega, by omega, hal⟩
    · rintro ⟨-, rfl, -, -⟩
      omega
  case isFalse h =>
    simp only [reduceCtorEq, false_iff]
    rintro ⟨hz, rfl, hoff, hal⟩
    exact h ⟨hz, by omega, by omega, by rwa [Nat.add_sub_cancel_left]⟩

/-- The engine's own step changes FADDR only with E_BUS (R41, R246). -/
theorem State.complete_faddr (s t : State) (h : s.complete = .next t) (hf : t.faddr ≠ s.faddr) :
    s.busy = true ∧ t.busy = false ∧ t.status.errcode = .eBus := by
  rcases s.complete_cases with ⟨-, hc⟩ | ⟨_, _, -, -, hc⟩ | ⟨_, _, _, e, he, -, hc⟩ | ⟨_, _, _, -, -, hc⟩ <;>
    cases hc.symm.trans h
  · exact absurd rfl hf
  · exact absurd rfl hf
  · cases e with
    | bus a => exact ⟨by simp [State.busy, he], rfl, rfl⟩
    | _ => exact absurd rfl hf
  · exact absurd rfl hf

/-- Settles O32: of the events only a completion and a reset write FADDR. -/
theorem faddrChangesOnlyOnBusErrorOrReset : Obligations.FaddrChangesOnlyOnBusErrorOrReset := by
  unfold Obligations.FaddrChangesOnlyOnBusErrorOrReset
  intro s t h hf
  rcases step_cases s t h with ⟨hi, hc⟩ | ⟨e, rest, hi, ha⟩
  · obtain ⟨hb, hb', he⟩ := s.complete_faddr t hc hf
    exact .inl ⟨hb, hb', he, .inl hi⟩
  rcases State.apply_cases _ t e ha with
    ⟨a, z, v, -, rfl⟩ | ⟨a, z, -, rfl⟩ | ⟨-, rfl⟩ | ⟨rfl, hc⟩ | ⟨_, _, -, rfl⟩ | ⟨rfl, -⟩
  · obtain ⟨-, -, hw, -⟩ := State.hostWrite_frame { s with inputs := rest } a z v
    exact absurd hw hf
  · obtain ⟨_, _, _, hr⟩ := State.hostRead_cases { s with inputs := rest } a z
    exact absurd (by rw [hr]) hf
  · exact absurd rfl hf
  · obtain ⟨hb, hb', he⟩ := State.complete_faddr _ t hc hf
    exact .inl ⟨hb, hb', he, .inr ⟨rest, hi⟩⟩
  · exact absurd rfl hf
  · exact .inr ⟨rest, hi⟩

/-- A host write that changes BUSY is a legal write of CMD to an idle core, which it makes busy (R38, R240). -/
theorem State.hostWrite_busy (s : State) (a : Nat) (z : AccessSize) (v : Word32)
    (h : (s.hostWrite a z v).busy ≠ s.busy) :
    s.busy = false ∧ Event.hostWrite a z v = writeEvent s .cmd v := by
  rcases s.hostWrite_cases a z v with ⟨-, hw⟩ | ⟨_, -, -, hw⟩ | ⟨off, r, hoff, hreg, hw⟩ <;> rw [hw] at h
  · exact absurd rfl h
  · exact absurd rfl h
  · rcases s.writeReg_engine r v with he | ⟨rfl, hidle, -⟩
    · exact absurd (by simp only [State.busy, he]) h
    · obtain ⟨rfl, rfl, -, -⟩ := (legalOffset_eq_some_iff _ a z off).1 hoff
      exact ⟨hidle, by rw [writeEvent, (regAt_eq_some_iff off .cmd).1 hreg]⟩

/-- The engine's own step ends what is in flight (R242). -/
theorem State.complete_busy (s t : State) (h : s.complete = .next t) (hb : t.busy ≠ s.busy) : s.busy = true := by
  cases he : s.engine with
  | idle => rw [s.complete_of_idle he] at h; cases h; exact absurd rfl hb
  | busy sn racy => simp [State.busy, he]

/-- Settles O33: reads and platform writes leave the engine phase. -/
theorem busyChangesOnlyAtLifecycleEvents : Obligations.BusyChangesOnlyAtLifecycleEvents := by
  unfold Obligations.BusyChangesOnlyAtLifecycleEvents
  intro s t h hb
  rcases step_cases s t h with ⟨hi, hc⟩ | ⟨e, rest, hi, ha⟩
  · exact .inr ⟨s.complete_busy t hc hb, .inl hi⟩
  rcases State.apply_cases _ t e ha with
    ⟨a, z, v, rfl, rfl⟩ | ⟨a, z, -, rfl⟩ | ⟨-, rfl⟩ | ⟨rfl, hc⟩ | ⟨_, _, -, rfl⟩ | ⟨rfl, rfl⟩
  · obtain ⟨hidle, he⟩ := State.hostWrite_busy _ a z v hb
    exact .inl ⟨hidle, v, rest, he ▸ hi⟩
  · obtain ⟨_, _, _, hr⟩ := State.hostRead_cases { s with inputs := rest } a z
    exact absurd (by rw [hr]; rfl) hb
  · exact absurd rfl hb
  · exact .inr ⟨State.complete_busy { s with inputs := rest } t hc hb, .inr (.inl ⟨rest, hi⟩)⟩
  · exact absurd (State.busy_memWrite _ _ _) hb
  · exact .inr ⟨by simpa [State.busy] using hb.symm, .inr (.inr ⟨rest, hi⟩)⟩

/-! ### What a completion and a step do not depend on -/

theorem State.completeWith_of_outcome_error (i : Instr) (sn : Snapshot) (racy : Bool)
    (f : Snapshot → Bytes → Bytes → Commit) (s : State) (e : CmdError)
    (h : s.outcome (checksOf i sn) sn (racy || s.racesAhead (checksOf i sn)) = some e) :
    s.completeWith i sn racy f = (s.fail e).noted (some i) (checksOf i sn) (racy || s.racesAhead (checksOf i sn)) := by
  simp only [State.completeWith, h]

theorem State.completeWith_of_outcome_success (i : Instr) (sn : Snapshot) (racy : Bool)
    (f : Snapshot → Bytes → Bytes → Commit) (s : State)
    (h : s.outcome (checksOf i sn) sn (racy || s.racesAhead (checksOf i sn)) = none) :
    s.completeWith i sn racy f =
      (s.succeed (s.results (checksOf i sn) (racy || s.racesAhead (checksOf i sn))
          (f sn (s.mem.region (checksOf i sn).key) (s.mem.region (checksOf i sn).data)))).noted (some i)
        (checksOf i sn) (racy || s.racesAhead (checksOf i sn)) := by
  simp only [State.completeWith, h]

/-- The state with other operand registers, DIGITS and H. -/
def State.withLive (o : OperandRegs) (d : BitVec 8) (x : Sha1State) (s : State) : State :=
  { s with operands := o, digits := d, h := x }

/-- Whether a success writes H is the command's matter alone, computed or drawn (R94). -/
theorem State.results_h_isSome (s : State) (k : Checks) (raced : Bool) (c : Commit) :
    (s.results k raced c).h.isSome = c.h.isSome := by
  rcases s.results_cases k raced c with h | h <;> simp [h]

theorem resultOf_h_isSome_iff (i : Instr) (c : Config) (sn : Snapshot) (K D : Bytes) :
    (resultOf i c sn K D).h.isSome = true ↔ WritesH i := by
  cases i <;> simp [resultOf_h_isSome, WritesH]

/-- The live operand registers and DIGITS pass through a completion; H does where the command does not write it, and where it
does, H is what it would be otherwise (R47, R50). -/
theorem State.completeWith_withLive (i : Instr) (sn : Snapshot) (racy : Bool) (f : Snapshot → Bytes → Bytes → Commit)
    (s : State) (o : OperandRegs) (d : BitVec 8) (x : Sha1State) :
    let t := s.completeWith i sn racy f
    let writes := (f sn (s.mem.region (checksOf i sn).key) (s.mem.region (checksOf i sn).data)).h.isSome
    ∃ y, (s.withLive o d x).completeWith i sn racy f = t.withLive o d y ∧
      (writes = true → t.status.err = false → y = t.h) ∧ (writes = false ∨ t.status.err = true → y = x) := by
  intro t writes
  cases hout : s.outcome (checksOf i sn) sn (racy || s.racesAhead (checksOf i sn)) with
  | some e =>
    have ht : t = _ := s.completeWith_of_outcome_error i sn racy f e hout
    rw [(s.withLive o d x).completeWith_of_outcome_error i sn racy f e hout, ht]
    exact ⟨x, rfl, fun _ => nofun, fun _ => rfl⟩
  | none =>
    have ht : t = _ := s.completeWith_of_outcome_success i sn racy f hout
    rw [(s.withLive o d x).completeWith_of_outcome_success i sn racy f hout, ht]
    let R := s.results (checksOf i sn) (racy || s.racesAhead (checksOf i sn))
      (f sn (s.mem.region (checksOf i sn).key) (s.mem.region (checksOf i sn).data))
    have hw : R.h.isSome = writes := s.results_h_isSome _ _ _
    refine ⟨R.h.getD x, rfl, fun h _ => ?_, fun h => ?_⟩
    · obtain ⟨y, hy⟩ := Option.isSome_iff_exists.1 (hw.trans h)
      change R.h.getD x = R.h.getD s.h
      rw [hy, Option.getD_some, Option.getD_some]
    · have hnone : writes = false := h.resolve_right nofun
      have hR : R.h = none := Option.isNone_iff_eq_none.1 (by rw [← Option.not_isSome, hw, hnone]; rfl)
      rw [hR, Option.getD_none]

/-- Settles O24: the outcome and the results are the snapshot's, memory's and the schedule's, so both runs end alike. -/
theorem completionReadsTheSnapshot : Obligations.CompletionReadsTheSnapshot := by
  unfold Obligations.CompletionReadsTheSnapshot
  intro i s t sn racy o d x he h
  rw [exec_of_busy i s sn racy he] at h
  obtain ⟨y, hy, hwrites, hkeeps⟩ := s.completeWith_withLive i sn racy (resultOf i s.config) o d x
  cases h
  rw [← resultOf_h_isSome_iff i s.config sn (s.mem.region (checksOf i sn).key) (s.mem.region (checksOf i sn).data),
    Bool.not_eq_true]
  exact ⟨y, (exec_of_busy i (s.withLive o d x) sn racy he).trans (congrArg _ hy), hwrites, hkeeps⟩

/-- The state with other working state of the hash cores. -/
def State.withWork (w : Option Sha1Work) (u : Option Usha0Work) (s : State) : State :=
  { s with sha1Work := w, usha0Work := u }

theorem State.writeReg_withWork (s : State) (w : Option Sha1Work) (u : Option Usha0Work) (r : Reg) (v : Word32) :
    (s.withWork w u).writeReg r v = (s.writeReg r v).withWork w u := by
  have hb : (s.withWork w u).busy = s.busy := rfl
  cases r with
  | cmd => cases h : s.busy <;> simp only [State.writeReg, hb, h] <;> rfl
  | h k => cases h : s.busy <;> simp only [State.writeReg, hb, h] <;> rfl
  | _ => rfl

theorem State.hostWrite_withWork (s : State) (w : Option Sha1Work) (u : Option Usha0Work) (a : Nat) (z : AccessSize)
    (v : Word32) : (s.withWork w u).hostWrite a z v = (s.hostWrite a z v).withWork w u := by
  cases h : legalOffset s.config a z with
  | none => rw [State.hostWrite_of_illegal h, State.hostWrite_of_illegal (s := s.withWork w u) h]; rfl
  | some off =>
    cases hr : regAt off with
    | none => rw [State.hostWrite_of_reserved h hr, State.hostWrite_of_reserved (s := s.withWork w u) h hr]; rfl
    | some r =>
      rw [State.hostWrite_of_reg h hr, State.hostWrite_of_reg (s := s.withWork w u) h hr, State.writeReg_withWork]; rfl

theorem State.hostRead_withWork (s : State) (w : Option Sha1Work) (u : Option Usha0Work) (a : Nat) (z : AccessSize) :
    (s.withWork w u).hostRead a z = (s.hostRead a z).withWork w u := by
  cases h : legalOffset s.config a z with
  | none => rw [State.hostRead_of_illegal h, State.hostRead_of_illegal (s := s.withWork w u) h]; rfl
  | some off =>
    cases hr : regAt off with
    | none => rw [State.hostRead_of_reserved h hr, State.hostRead_of_reserved (s := s.withWork w u) h hr]; rfl
    | some r =>
      have hread : (s.withWork w u).readReg r = s.readReg r := by cases r <;> rfl
      cases hf : r.isResult && s.busy with
      | true => rw [State.hostRead_of_free h hr hf, State.hostRead_of_free (s := s.withWork w u) h hr hf]; rfl
      | false =>
        rw [State.hostRead_of_valid h hr hf, State.hostRead_of_valid (s := s.withWork w u) h hr hf, hread]; rfl

/-- A completion leaves a fresh residue, whatever was there (R282). -/
theorem State.completeWith_withWork (i : Instr) (sn : Snapshot) (racy : Bool) (f : Snapshot → Bytes → Bytes → Commit)
    (s : State) (w : Option Sha1Work) (u : Option Usha0Work) :
    (s.withWork w u).completeWith i sn racy f = s.completeWith i sn racy f := by
  cases hout : s.outcome (checksOf i sn) sn (racy || s.racesAhead (checksOf i sn)) with
  | some e =>
    rw [s.completeWith_of_outcome_error i sn racy f e hout,
      (s.withWork w u).completeWith_of_outcome_error i sn racy f e hout]
    rfl
  | none =>
    rw [s.completeWith_of_outcome_success i sn racy f hout,
      (s.withWork w u).completeWith_of_outcome_success i sn racy f hout]
    rfl

theorem State.complete_withWork (s t : State) (w : Option Sha1Work) (u : Option Usha0Work) (h : s.complete = .next t) :
    ∃ w' u', (s.withWork w u).complete = .next (t.withWork w' u') := by
  cases he : s.engine with
  | idle =>
    rw [s.complete_of_idle he] at h
    cases h
    exact ⟨w, u, (s.withWork w u).complete_of_idle he⟩
  | busy sn racy =>
    refine ⟨t.sha1Work, t.usha0Work, ?_⟩
    cases hd : decode sn.cmd with
    | none =>
      rw [s.complete_of_illegal sn racy he hd] at h
      cases h
      exact (s.withWork w u).complete_of_illegal sn racy he hd
    | some i =>
      rw [s.complete_of_command sn racy i he hd, exec_of_busy i s sn racy he] at h
      rw [(s.withWork w u).complete_of_command sn racy i he hd, exec_of_busy i (s.withWork w u) sn racy he,
        State.completeWith_withWork]
      exact h

/-- A completion and a reset set the working state whatever it was, and every other event carries it along. -/
theorem State.apply_withWork (s t : State) (e : Event) (w : Option Sha1Work) (u : Option Usha0Work)
    (h : s.apply e = .next t) : ∃ w' u', (s.withWork w u).apply e = .next (t.withWork w' u') := by
  rcases s.apply_cases t e h with
    ⟨a, z, v, rfl, rfl⟩ | ⟨a, z, rfl, rfl⟩ | ⟨rfl, rfl⟩ | ⟨rfl, hc⟩ | ⟨a, b, rfl, rfl⟩ | ⟨rfl, rfl⟩
  · exact ⟨w, u, congrArg _ (s.hostWrite_withWork w u a z v)⟩
  · exact ⟨w, u, congrArg _ (s.hostRead_withWork w u a z)⟩
  · exact ⟨w, u, rfl⟩
  · exact s.complete_withWork t w u hc
  · exact ⟨w, u, rfl⟩
  · exact ⟨none, none, rfl⟩

/-- Settles O26: the two runs take the same event, and each event's lemma above keeps them equal but for the working
state. -/
theorem noWorkingStateIsCarriedOver : Obligations.NoWorkingStateIsCarriedOver := by
  unfold Obligations.NoWorkingStateIsCarriedOver
  intro s t w u h
  have hstep : ∃ w' u', step (s.withWork w u) = .next (t.withWork w' u') := by
    rcases step_cases s t h with ⟨hi, hc⟩ | ⟨e, rest, hi, ha⟩
    · rw [step_nil (s.withWork w u) hi]
      exact s.complete_withWork t w u hc
    · rw [step_cons (s.withWork w u) e rest hi]
      exact State.apply_withWork _ t e w u ha
  obtain ⟨w', u', ht⟩ := hstep
  exact ⟨t.withWork w' u', ht, rfl⟩

end Sys2Proof.Machine


/-! ### The register window -/

namespace Sys2Proof.Machine

/-! The map of R32 and R33. -/

theorem legalOffset_of_legal (c : Config) (a : Nat) (z : AccessSize)
    (h : z = .word ∧ c.mmioBase ≤ a ∧ a < c.mmioBase + 0x100 ∧ (a - c.mmioBase) % 4 = 0) :
    legalOffset c a z = some (a - c.mmioBase) := if_pos h

theorem legalOffset_of_illegal (c : Config) (a : Nat) (z : AccessSize)
    (h : ¬ (z = .word ∧ c.mmioBase ≤ a ∧ a < c.mmioBase + 0x100 ∧ (a - c.mmioBase) % 4 = 0)) :
    legalOffset c a z = none := if_neg h

/-- The map at the window's 64 word offsets (R33). -/
theorem regAt_eq_none_iff (q : Nat) (hq : q < 0x40) : regAt (4 * q) = none ↔ ReservedOffset (4 * q) := by
  unfold ReservedOffset
  revert q
  decide

theorem regAt_reserved (off : Nat) (h : ReservedOffset off) : regAt off = none := by
  obtain ⟨hal, hoff⟩ := h
  obtain ⟨q, rfl⟩ := Nat.dvd_of_mod_eq_zero hal
  exact (regAt_eq_none_iff q (by omega)).2 ⟨hal, hoff⟩

theorem legalOffset_reserved (c : Config) (off : Nat) (h : ReservedOffset off) :
    legalOffset c (c.mmioBase + off) .word = some off := by
  obtain ⟨hal, hoff⟩ := h
  exact (legalOffset_eq_some_iff c _ _ off).2 ⟨rfl, rfl, by unfold windowSize; omega, hal⟩

/-- Settles O38: the first part is the map's own laws; the second, its 64 word offsets one by one. -/
theorem registerMapIsExact : Obligations.RegisterMapIsExact := by
  refine ⟨fun r => ⟨r.offset_bounds.1, r.offset_bounds.2, regAt_offset r⟩, fun off hoff hal => ?_⟩
  obtain ⟨q, rfl⟩ := Nat.dvd_of_mod_eq_zero hal
  exact regAt_eq_none_iff q (by omega)

theorem State.hostWrite_reply_of_legal (s : State) (a : Nat) (z : AccessSize) (off : Nat) (v : Word32)
    (h : legalOffset s.config a z = some off) : (s.hostWrite a z v).reply = .written := by
  cases hr : regAt off with
  | none => rw [State.hostWrite_of_reserved h hr]
  | some r => rw [State.hostWrite_of_reg h hr]

theorem State.hostRead_reply_of_legal (s : State) (a : Nat) (z : AccessSize) (off : Nat)
    (h : legalOffset s.config a z = some off) : ∃ x, (s.hostRead a z).reply = .data x := by
  cases hr : regAt off with
  | none => exact ⟨0, by rw [State.hostRead_of_reserved h hr]⟩
  | some r =>
    cases hf : r.isResult && s.busy with
    | true => exact ⟨_, by rw [State.hostRead_of_free h hr hf]⟩
    | false => exact ⟨_, by rw [State.hostRead_of_valid h hr hf]⟩

/-- Settles O39: the condition is `legalOffset`'s own. -/
theorem illegalAccessGetsABusError : Obligations.IllegalAccessGetsABusError := by
  unfold Obligations.IllegalAccessGetsABusError
  intro s a z v legal
  rw [step_cons { s with inputs := [.hostWrite a z v] } _ [] rfl,
    step_cons { s with inputs := [.hostRead a z] } _ [] rfl]
  refine ⟨fun h => ?_, fun h => ?_⟩
  · have hoff := legalOffset_of_illegal s.config a z h
    exact ⟨congrArg _ (State.hostWrite_of_illegal (s := { s with inputs := [] }) hoff v),
      congrArg _ (State.hostRead_of_illegal (s := { s with inputs := [] }) hoff)⟩
  · have hoff := legalOffset_of_legal s.config a z h
    obtain ⟨x, hx⟩ := State.hostRead_reply_of_legal { s with inputs := [] } a z _ hoff
    exact ⟨⟨_, rfl, State.hostWrite_reply_of_legal { s with inputs := [] } a z _ v hoff⟩, _, x, rfl, hx⟩

/-! A step that takes a host access to one register. -/

theorem State.writeReg_withInputs (s : State) (es : List Event) (r : Reg) (v : Word32) :
    ({ s with inputs := es } : State).writeReg r v = { s.writeReg r v with inputs := es } := by
  have hb : ({ s with inputs := es } : State).busy = s.busy := rfl
  cases r with
  | cmd => cases h : s.busy <;> simp only [State.writeReg, hb, h] <;> rfl
  | h k => cases h : s.busy <;> simp only [State.writeReg, hb, h] <;> rfl
  | _ => rfl

/-- The model's own fields are no register's. -/
theorem State.readReg_withOwn (s : State) (es : List Event) (p : Reply) (n : Nat) (us : List Completed) (r : Reg) :
    ({ s with inputs := es, reply := p, draws := n, unobserved := us } : State).readReg r = s.readReg r := by
  cases r <;> rfl

theorem step_writeEvent (s : State) (r : Reg) (v : Word32) (rest : List Event)
    (h : s.inputs = writeEvent s r v :: rest) :
    step s = .next { s.writeReg r v with inputs := rest, reply := .written } := by
  rw [step_cons s _ rest h]
  have hw := State.hostWrite_reg { s with inputs := rest } r v
  rw [State.writeReg_withInputs] at hw
  exact congrArg _ hw

theorem step_readEvent_of_valid (s : State) (r : Reg) (rest : List Event) (h : s.inputs = readEvent s r :: rest)
    (hv : (r.isResult && s.busy) = false) :
    step s = .next { s with
      inputs := rest
      reply := .data (s.readReg r)
      unobserved := if s.observes r then [] else s.unobserved } := by
  rw [step_cons s _ rest h]
  have hr := State.hostRead_of_valid (s := { s with inputs := rest }) (legalOffset_reg s.config r) (regAt_offset r) hv
  rw [s.readReg_withOwn rest s.reply s.draws s.unobserved r] at hr
  exact congrArg _ hr

theorem step_readEvent_of_free (s : State) (r : Reg) (rest : List Event) (h : s.inputs = readEvent s r :: rest)
    (hf : (r.isResult && s.busy) = true) :
    step s = .next { s with
      inputs := rest
      reply := .data (Config.freeWord32 s.draws 0)
      draws := s.draws + 1 } := by
  rw [step_cons s _ rest h]
  exact congrArg _
    (State.hostRead_of_free (s := { s with inputs := rest }) (legalOffset_reg s.config r) (regAt_offset r) hf)

/-- A read observes completion if it is one of STATUS with BUSY = 0 or DONE = 1 (R82 item 4). -/
theorem State.observes_iff (s : State) (r : Reg) :
    s.observes r = true ↔ r = .status ∧ (s.busy = false ∨ s.status.done = true) := by
  simp [State.observes, State.watch, Watch.showsCompletion]

/-! The words of R32 and R35. -/

/-- STATUS, field by field (R32). -/
theorem State.statusWord_layout (s : State) :
    s.statusWord.getLsbD 0 = s.busy ∧ s.statusWord.getLsbD 1 = s.status.done ∧
      s.statusWord.getLsbD 2 = s.status.err ∧ s.statusWord.getLsbD 3 = s.status.ovr ∧
      s.statusWord.extractLsb' 4 4 = 0#4 ∧ s.statusWord.extractLsb' 8 8 = s.status.errcode.bits ∧
      s.statusWord.extractLsb' 16 8 = s.status.lastop ∧ s.statusWord.extractLsb' 24 8 = 0#8 := by
  unfold State.statusWord
  refine ⟨?busy, ?done, ?err, ?ovr, ?rsvd, ?errcode, ?lastop, ?top⟩
  case busy =>
    rw [BitVec.getLsbD_append]
    simp
  case done =>
    iterate 2 rw [BitVec.getLsbD_append]
    simp
  case err =>
    iterate 3 rw [BitVec.getLsbD_append]
    simp
  case ovr =>
    iterate 4 rw [BitVec.getLsbD_append]
    simp
  case rsvd =>
    iterate 4 rw [BitVec.extractLsb'_append_eq_of_le (by decide)]
    exact BitVec.extractLsb'_append_eq_right
  case errcode =>
    iterate 5 rw [BitVec.extractLsb'_append_eq_of_le (by decide)]
    exact BitVec.extractLsb'_append_eq_right
  case lastop =>
    iterate 6 rw [BitVec.extractLsb'_append_eq_of_le (by decide)]
    exact BitVec.extractLsb'_append_eq_right
  case top =>
    iterate 7 rw [BitVec.extractLsb'_append_eq_of_le (by decide)]
    exact BitVec.extractLsb'_eq_self

theorem State.ctrlWord_eq (s : State) : s.ctrlWord = if s.ie then 0x00000001 else 0x00000000 := by
  cases h : s.ie <;> simp only [State.ctrlWord, h] <;> rfl

theorem State.readReg_digits (s : State) : s.readReg .digits = 0#24 ++ s.digits := BitVec.setWidth_eq_append (by decide)

theorem hiHalf_append_loHalf (v : Word64) : hiHalf v ++ loHalf v = v :=
  (BitVec.extractLsb'_append_extractLsb'_eq_extractLsb' rfl).trans BitVec.extractLsb'_eq_self

/-- Settles O41: the layout of the word, and the codes of `ErrCode.bits`. -/
theorem statusLayout : Obligations.StatusLayout := by
  unfold Obligations.StatusLayout
  intro s
  obtain ⟨hbusy, hdone, herr, hovr, -, hcode, hlast, -⟩ := s.statusWord_layout
  exact ⟨hbusy, hdone, herr, hovr, hlast, hcode.trans (by cases s.status.errcode <;> rfl)⟩

theorem State.writeReg_of_readOnly (s : State) (r : Reg) (v : Word32) (h : IsReadOnlyReg r) : s.writeReg r v = s := by
  cases r <;> simp only [IsReadOnlyReg] at h <;> rfl

/-- Settles O40: at a reserved offset the map finds no register, and a read-only register's write is none. -/
theorem reservedAndReadOnlyIgnoreWrites : Obligations.ReservedAndReadOnlyIgnoreWrites := by
  unfold Obligations.ReservedAndReadOnlyIgnoreWrites
  intro s v rest
  obtain ⟨-, -, -, -, hrsvd, -, -, htop⟩ := s.statusWord_layout
  refine ⟨fun off hoff => ?_, fun r hr h => ?_, BitVec.extractLsb'_append_eq_left, ?_, hrsvd, htop⟩
  · have hl := legalOffset_reserved s.config off hoff
    have hnone := regAt_reserved off hoff
    refine ⟨fun h => ?_, fun h => ?_⟩ <;> rw [step_cons s _ rest h]
    · exact congrArg _ (State.hostWrite_of_reserved (s := { s with inputs := rest }) hl hnone v)
    · exact congrArg _ (State.hostRead_of_reserved (s := { s with inputs := rest }) hl hnone)
  · rw [step_writeEvent s r v rest h, s.writeReg_of_readOnly r v hr]
  · rw [s.readReg_digits]
    exact BitVec.extractLsb'_append_eq_left

theorem Status.clearBits_eq (t : Status) (v : Word32) :
    t.clearBits v = {
      done := if v.getLsbD 1 then false else t.done
      err := if v.getLsbD 2 then false else t.err
      ovr := if v.getLsbD 3 then false else t.ovr
      errcode := if v.getLsbD 2 then .eNone else t.errcode
      lastop := t.lastop } := by
  have hclear (b c : Bool) : (b && !c) = if c then false else b := by cases c <;> simp
  simp only [Status.clearBits, hclear]

/-- Settles O42: the write is `Status.clearBits`, bit by bit. -/
theorem statusWriteClearsW1cBits : Obligations.StatusWriteClearsW1cBits := by
  unfold Obligations.StatusWriteClearsW1cBits
  intro s v rest h
  rw [step_writeEvent s .status v rest h, ← Status.clearBits_eq]
  rfl

/-- Settles O43: neither the write nor the read looks at the engine phase, and a CTRL read observes nothing. -/
theorem ctrlHoldsTheInterruptEnable : Obligations.CtrlHoldsTheInterruptEnable := by
  unfold Obligations.CtrlHoldsTheInterruptEnable
  intro s v rest
  refine ⟨fun h => step_writeEvent s .ctrl v rest h, fun h => ?_⟩
  rw [step_readEvent_of_valid s .ctrl rest h rfl, ← s.ctrlWord_eq]
  rfl

/-! Operand registers, DIGITS and H0..H4. -/

theorem State.writeReg_operand (s : State) (r : Reg) (v : Word32) (hr : IsOperandReg r) :
    s.writeReg r v = { s with operands := (s.writeReg r v).operands } := by
  unfold IsOperandReg at hr
  fin_cases hr <;> rfl

theorem State.readReg_writeReg_operand_same (s : State) (r : Reg) (v : Word32) (hr : IsOperandReg r) :
    (s.writeReg r v).readReg r = v := by
  unfold IsOperandReg at hr
  fin_cases hr <;> rfl

theorem State.readReg_writeReg_operand_other (s : State) (r r' : Reg) (v : Word32) (hr : IsOperandReg r)
    (hne : r' ≠ r) : (s.writeReg r v).readReg r' = s.readReg r' := by
  unfold IsOperandReg at hr
  fin_cases hr <;> cases r' <;> simp only [ne_eq, reduceCtorEq, not_true_eq_false, not_false_eq_true] at hne <;> rfl

/-- The low 8 bits of a word, as DIGITS keeps and shows them (R40). -/
theorem setWidth_extractLsb'_low8 (v : Word32) : (v.extractLsb' 0 8).setWidth 32 = v &&& 0x000000FF := by
  have hmod : v.toNat &&& 255 = v.toNat % 256 := Nat.and_two_pow_sub_one_eq_mod v.toNat 8
  apply BitVec.eq_of_toNat_eq
  simp [hmod]
  omega

/-- Settles O44: a write to an operand register and then a read of the same one, or of another. -/
theorem operandWriteReadsBack : Obligations.OperandWriteReadsBack := by
  unfold Obligations.OperandWriteReadsBack
  intro s r v rest h
  have hstep := step_writeEvent s r v rest h
  have hread := (s.writeReg r v).readReg_withOwn rest .written (s.writeReg r v).draws (s.writeReg r v).unobserved
  refine ⟨fun hr => ⟨_, hstep, ?_, ?_, fun r' hne => ?_⟩, ?_⟩
  · rw [s.writeReg_operand r v hr]
  · exact (hread r).trans (s.readReg_writeReg_operand_same r v hr)
  · exact (hread r').trans (s.readReg_writeReg_operand_other r r' v hr hne)
  · rintro rfl
    exact ⟨_, hstep, rfl, setWidth_extractLsb'_low8 v⟩

theorem Sha1State.get_put_same (h : Sha1State) (k : Fin 5) (v : Word32) : (h.put k v).get k = v := by
  fin_cases k <;> rfl

theorem Sha1State.get_put_other (h : Sha1State) (k j : Fin 5) (v : Word32) (hne : j ≠ k) :
    (h.put k v).get j = h.get j := by
  fin_cases k <;> fin_cases j <;> simp at hne <;> rfl

/-- Settles O45: an idle core replaces word k of H, a busy one drops the write. -/
theorem stateWordsAreWrittenOnlyWhenIdle : Obligations.StateWordsAreWrittenOnlyWhenIdle := by
  unfold Obligations.StateWordsAreWrittenOnlyWhenIdle
  intro s k v rest h
  have hstep := step_writeEvent s (.h k) v rest h
  refine ⟨fun hb => ?_, fun hb => ?_⟩
  · have hw : s.writeReg (.h k) v = { s with h := s.h.put k v } := by simp [State.writeReg, hb]
    rw [hw] at hstep
    exact ⟨_, hstep, rfl, s.h.get_put_same k v, fun j hne => s.h.get_put_other k j v hne⟩
  · have hw : s.writeReg (.h k) v = s.dropWrite := by simp [State.writeReg, hb]
    rw [hw] at hstep
    exact hstep

/-! Reads and the reset values. -/

/-- Only ID shows a platform parameter. -/
theorem State.readReg_resetWith (c : Config) (m : Memory) (inputs : List Event) (n : Nat) (r : Reg) (h : r ≠ .id) :
    (State.resetWith c m inputs n).readReg r = State.reset.readReg r := by
  cases r with
  | id => exact absurd rfl h
  | _ => rfl

theorem State.readReg_reset (r : Reg) (h : ∀ k, r ≠ .h k) : State.reset.readReg r = 0 := by
  cases r with
  | h k => exact absurd rfl (h k)
  | res k => clear h; revert k; decide
  | otpStr k => clear h; revert k; decide
  | _ => decide

/-- Settles O37: but for ID the registers read as after `State.reset`, where each reads 0 or is a word of H. -/
theorem resetStateHoldsTheResetValues : Obligations.ResetStateHoldsTheResetValues :=
  ⟨rfl, fun c m inputs n => ⟨rfl, rfl,
    fun r hid hh => (State.readReg_resetWith c m inputs n r hid).trans (State.readReg_reset r hh), rfl, rfl, rfl, rfl, rfl⟩⟩

/-- Settles O46: the step is the valid read of the register, and the values are those `State.readReg` gives. -/
theorem validReadsGiveTheValue : Obligations.ValidReadsGiveTheValue := by
  refine ⟨fun s r rest h hv => ?_, fun s rest h => ?_, fun s => ?_⟩
  · have hvalid : (r.isResult && s.busy) = false := by cases hb : s.busy <;> simp [hb, hv]
    rw [step_readEvent_of_valid s r rest h hvalid]
    simp only [s.observes_iff]
  · exact step_cons s _ rest h
  · exact ⟨rfl, rfl, rfl, rfl, rfl, rfl, rfl, rfl, rfl, rfl, rfl, rfl, rfl, rfl, rfl, rfl, s.readReg_digits,
      hiHalf_append_loHalf s.faddr, rfl, rfl, rfl, rfl, rfl, fun _ => rfl, rfl, rfl, fun _ => rfl,
      hiHalf_append_loHalf s.otpCnt⟩

/-- Settles O47: each register of R45 is a result register, whose read while busy is the free one. -/
theorem busyResultReadHasNoSideEffect : Obligations.BusyResultReadHasNoSideEffect := by
  unfold Obligations.BusyResultReadHasNoSideEffect
  intro s r rest h hb hr
  have hres : r.isResult = true := by
    rcases hr with hm | ⟨k, rfl⟩ | ⟨k, rfl⟩ | ⟨k, rfl⟩
    · fin_cases hm <;> rfl
    · rfl
    · rfl
    · rfl
  exact ⟨_, _, step_readEvent_of_free s r rest h (by rw [hres, hb]; rfl), rfl,
    fun r' => s.readReg_withOwn rest _ _ s.unobserved r'⟩

end Sys2Proof.Machine


/-! PROOFS. The statements about operand memory and platform writes (spec/20_memory.md R71 to R82): what changes memory, how a
raced command completes, and that the look ahead finds exactly the races the machine will run into. -/

namespace Sys2Proof.Machine

/-! ### What changes memory -/

/-- The core never writes operand memory (R71). -/
theorem State.complete_mem (s t : State) (h : s.complete = .next t) : t.mem = s.mem := by
  rcases s.complete_cases with ⟨-, hc⟩ | ⟨_, _, -, -, hc⟩ | ⟨_, _, _, _, -, -, hc⟩ | ⟨_, _, _, -, -, hc⟩ <;>
    cases hc.symm.trans h <;> rfl

/-- Of the events only a platform write changes memory, and it writes one octet (R71, R260). -/
theorem State.apply_mem (s t : State) (e : Event) (h : s.apply e = .next t) :
    t.mem = s.mem ∨ ∃ a b, e = .memWrite a b ∧ t.mem = s.mem.write a.toNat b := by
  rcases s.apply_cases t e h with ⟨a, z, v, -, rfl⟩ | ⟨a, z, -, rfl⟩ | ⟨-, rfl⟩ | ⟨-, hc⟩ | ⟨a, b, rfl, rfl⟩ | ⟨-, rfl⟩
  · obtain ⟨-, hm, -⟩ := s.hostWrite_frame a z v
    exact .inl hm
  · obtain ⟨_, _, _, hr⟩ := s.hostRead_cases a z
    exact .inl (by rw [hr])
  · exact .inl rfl
  · exact .inl (s.complete_mem t hc)
  · exact .inr ⟨a, b, rfl, rfl⟩
  · exact .inl rfl

/-- Settles O31: the octet read after a platform write is the law of canonical memory. -/
theorem onlyPlatformWritesChangeMemory : Obligations.OnlyPlatformWritesChangeMemory := by
  unfold Obligations.OnlyPlatformWritesChangeMemory
  intro s t h
  rcases step_cases s t h with ⟨-, hc⟩ | ⟨e, rest, hi, ha⟩
  · obtain ⟨hconfig, -⟩ := s.complete_frame t hc
    exact ⟨hconfig, .inl (s.complete_mem t hc)⟩
  · obtain ⟨hconfig, -⟩ := State.apply_frame _ t e ha
    refine ⟨hconfig, (State.apply_mem _ t e ha).imp_right ?_⟩
    rintro ⟨a, b, rfl, hm⟩
    exact ⟨a, b, rest, hi, fun hwf x => hm ▸ s.mem.read_write_wf a.toNat x b hwf⟩

/-! ### The outcome of a raced command -/

/-- A drawn outcome is success or one of the command's errors. -/
theorem drawOutcome_mem (n : Nat) (k : Checks) (e : CmdError) (h : drawOutcome n k = some e) :
    e ∈ possibleErrors k (Config.freeWord64 n 1) := by
  have hlt : Config.freeChoice n % (none :: (possibleErrors k (Config.freeWord64 n 1)).map some).length <
      (none :: (possibleErrors k (Config.freeWord64 n 1)).map some).length := Nat.mod_lt _ (by simp)
  have hmem := List.getElem_mem hlt
  rw [← List.getD_eq_getElem _ none hlt] at hmem
  change drawOutcome n k ∈ _ at hmem
  rw [h] at hmem
  simpa using hmem

/-- The errors the checks of a command allow are those of its row (R243, R245). -/
theorem code_mem_codesOf (i : Instr) (sn : Snapshot) (fa : Word64) (e : CmdError)
    (h : e ∈ possibleErrors (checksOf i sn) fa) : e.code ∈ codesOf i := by
  have hcodes : (possibleErrors (checksOf i sn) fa).map CmdError.code = codesOf i := by cases i <;> rfl
  exact hcodes ▸ List.mem_map_of_mem h

/-- A draw depends only on which registers the commit writes. -/
theorem Commit.drawn_congr (n : Nat) {c c' : Commit} (hh : c.h.isSome = c'.h.isSome)
    (hres : c.res.isSome = c'.res.isSome) (hotp : c.otp.isSome = c'.otp.isSome) (hcnt : c.cnt.isSome = c'.cnt.isSome) :
    c.drawn n = c'.drawn n := by
  have hmap {α : Type} (x : α) (o : Option α) : (o.map fun _ => x) = if o.isSome then some x else none := by
    cases o <;> rfl
  simp only [Commit.drawn, hmap, hh, hres, hotp, hcnt]

/-- The draw replaces every value a command commits (R82 item 3). -/
theorem drawn_resultOf (n : Nat) (i : Instr) (c : Config) (sn : Snapshot) (K D K' D' : Bytes) :
    (resultOf i c sn K D).drawn n = (resultOf i c sn K' D').drawn n :=
  Commit.drawn_congr n (by simp only [resultOf_h_isSome]) (by simp only [resultOf_res_isSome])
    (by simp only [resultOf_otp_isSome]) (by simp only [resultOf_cnt_isSome])

/-- A raced success commits draws (R82 item 3). -/
theorem State.results_of_raced (s : State) (k : Checks) (c : Commit) : s.results k true c = c.drawn s.draws := rfl

/-- Settles O21: outcome and results of a raced command are draws, and a drawn error is one of the command's row. -/
theorem racyCommandOutcomeIsFree : Obligations.RacyCommandOutcomeIsFree := by
  unfold Obligations.RacyCommandOutcomeIsFree
  intro i s sn racy m he hrace
  have hraced : (racy || s.racesAhead (checksOf i sn)) = true := Bool.or_eq_true_iff.2 hrace
  refine ⟨_, exec_of_busy i s sn racy he, ?_⟩
  rw [exec_of_busy i { s with mem := m } sn racy he]
  cases ho : s.outcome (checksOf i sn) sn (racy || s.racesAhead (checksOf i sn)) with
  | some e =>
    rw [s.completeWith_of_outcome_error i sn racy _ e ho,
      State.completeWith_of_outcome_error i sn racy _ { s with mem := m } e ho]
    rw [hraced] at ho
    exact ⟨rfl, rfl, .inr ⟨rfl, code_mem_codesOf i sn _ e (drawOutcome_mem s.draws _ e ho)⟩, rfl⟩
  | none =>
    rw [s.completeWith_of_outcome_success i sn racy _ ho,
      State.completeWith_of_outcome_success i sn racy _ { s with mem := m } ho]
    refine ⟨rfl, rfl, .inl ⟨rfl, rfl⟩, ?_⟩
    have hahead : ({ s with mem := m } : State).racesAhead (checksOf i sn) = s.racesAhead (checksOf i sn) := rfl
    rw [hahead, hraced, State.results_of_raced, State.results_of_raced,
      drawn_resultOf s.draws i s.config sn _ _ (s.mem.region (checksOf i sn).key) (s.mem.region (checksOf i sn).data)]
    rfl

/-! ### A platform write -/

/-- The regions of R245's table are the operand regions of R73. -/
theorem reads_checksOf (i : Instr) (sn : Snapshot) (a : Nat) :
    (checksOf i sn).reads a = true ↔ InOperandRegion i sn a := by
  cases i <;>
    simp [Checks.reads, checksOf, InOperandRegion, ReadsKey, dataLength, Region.contains_iff, Snapshot.keyRegion,
      Snapshot.dataRegion]

theorem inFlightReads_of_command (sn : Snapshot) (a : Nat) (i : Instr) (h : decode sn.cmd = some i) :
    inFlightReads sn a = (checksOf i sn).reads a := by simp only [inFlightReads, h]

theorem inFlightReads_of_illegal (sn : Snapshot) (a : Nat) (h : decode sn.cmd = none) :
    inFlightReads sn a = false := by simp only [inFlightReads, h]

/-- A platform write hits the command in flight when it is in an operand region of the command the word names. -/
theorem inFlightReads_iff (sn : Snapshot) (a : Nat) :
    inFlightReads sn a = true ↔ ∃ i, decode sn.cmd = some i ∧ InOperandRegion i sn a := by
  cases h : decode sn.cmd with
  | none => simp [inFlightReads_of_illegal sn a h]
  | some i => simp [inFlightReads_of_command sn a i h, reads_checksOf]

theorem Engine.afterWrite_of_hit (sn : Snapshot) (racy : Bool) (a : Nat) (h : inFlightReads sn a = true) :
    (Engine.busy sn racy).afterWrite a = .busy sn true := by simp [Engine.afterWrite, h]

theorem Engine.afterWrite_of_miss (sn : Snapshot) (racy : Bool) (a : Nat) (h : inFlightReads sn a = false) :
    (Engine.busy sn racy).afterWrite a = .busy sn racy := by simp [Engine.afterWrite, h]

/-! ### The look ahead is the machine's own run -/

/-- The engine's own step always answers a next state, and takes no completion off the record. -/
theorem State.complete_next (s : State) : ∃ t, s.complete = .next t ∧ (s.unobserved ≠ [] → t.unobserved ≠ []) := by
  rcases s.complete_cases with ⟨-, hc⟩ | ⟨_, _, -, -, hc⟩ | ⟨_, _, _, _, -, -, hc⟩ | ⟨_, _, _, -, -, hc⟩ <;>
    refine ⟨_, hc, ?_⟩ <;> simp

/-- Every event answers a next state. -/
theorem State.apply_next (s : State) (e : Event) : ∃ t, s.apply e = .next t := by
  cases e with
  | complete => exact s.complete_next.imp fun _ h => h.1
  | _ => exact ⟨_, rfl⟩

/-- The record is emptied by exactly a reset and the host accesses the look ahead takes for observations. -/
theorem State.apply_unobserved_eq_nil_iff (s t : State) (e : Event) (h : s.apply e = .next t)
    (hu : s.unobserved ≠ []) : t.unobserved = [] ↔ e = .reset ∨ s.watch.observes s.config e = true := by
  rcases s.apply_cases t e h with
    ⟨a, z, v, rfl, rfl⟩ | ⟨a, z, rfl, rfl⟩ | ⟨rfl, rfl⟩ | ⟨rfl, hc⟩ | ⟨a, b, rfl, rfl⟩ | ⟨rfl, rfl⟩
  · obtain ⟨-, -, -, -, -, hw⟩ := s.hostWrite_frame a z v
    simp [hw, hu, Watch.observes]
  · rw [State.hostRead_unobserved]
    simp [hu]
  · rw [State.hostIrq_unobserved]
    simp [hu]
  · obtain ⟨t', ht, hkeeps⟩ := s.complete_next
    cases ht.symm.trans hc
    simp [hkeeps hu, Watch.observes]
  · simp [hu, Watch.observes]
  · simp

/-- The look ahead at one event: a write that hits, or none of its ends and a hit later (R274). -/
theorem writeAhead_cons (c : Config) (k : Checks) (w : Watch) (e : Event) (rest : List Event) :
    writeAhead c k w (e :: rest) = true ↔
      (∃ a b, e = .memWrite a b ∧ k.reads a.toNat = true) ∨
        ¬ (e = .reset ∨ w.observes c e = true) ∧ writeAhead c k (w.after c e) rest = true := by
  cases e with
  | memWrite a b => simp [writeAhead, Watch.observes, Watch.after]
  | _ => simp [writeAhead]

/-- As the machine runs on from `s`, a platform write to one of the addresses comes while, at every step up to then, some
completion is on record as unobserved. -/
def RunsIntoWrite (P : Nat → Prop) (s : State) : Prop :=
  ∃ n u a b rest, Host.Core.run Sys2Proof.core n s = .next u ∧ u.inputs = .memWrite a b :: rest ∧ P a.toNat ∧
    ∀ k, k ≤ n → ∃ v, Host.Core.run Sys2Proof.core k s = .next v ∧ v.unobserved ≠ []

theorem run_zero (s : State) : Host.Core.run Sys2Proof.core 0 s = .next s := rfl

theorem run_succ (s t : State) (n : Nat) (h : step s = .next t) :
    Host.Core.run Sys2Proof.core (n + 1) s = Host.Core.run Sys2Proof.core n t := by
  have hcore : Host.Core.step Sys2Proof.core s = .next t := h
  simp only [Host.Core.run, hcore]

theorem RunsIntoWrite.unobserved {P : Nat → Prop} {s : State} (h : RunsIntoWrite P s) : s.unobserved ≠ [] := by
  obtain ⟨n, _, _, _, _, -, -, -, hrec⟩ := h
  obtain ⟨v, hv, hne⟩ := hrec 0 n.zero_le
  cases (run_zero s).symm.trans hv
  exact hne

/-- The first event decides, or the run from the next state does. -/
theorem runsIntoWrite_step (P : Nat → Prop) (s t : State) (h : step s = .next t) (hu : s.unobserved ≠ []) :
    RunsIntoWrite P s ↔ (∃ a b rest, s.inputs = .memWrite a b :: rest ∧ P a.toNat) ∨ RunsIntoWrite P t := by
  constructor
  · rintro ⟨n, u, a, b, rest, hrun, hin, hP, hrec⟩
    cases n with
    | zero =>
      cases (run_zero s).symm.trans hrun
      exact .inl ⟨a, b, rest, hin, hP⟩
    | succ n =>
      refine .inr ⟨n, u, a, b, rest, run_succ s t n h ▸ hrun, hin, hP, fun k hk => ?_⟩
      rw [← run_succ s t k h]
      exact hrec (k + 1) (Nat.succ_le_succ hk)
  · rintro (⟨a, b, rest, hin, hP⟩ | ⟨n, u, a, b, rest, hrun, hin, hP, hrec⟩)
    · refine ⟨0, s, a, b, rest, rfl, hin, hP, fun k hk => ?_⟩
      rw [Nat.le_zero.1 hk]
      exact ⟨s, rfl, hu⟩
    · refine ⟨n + 1, u, a, b, rest, (run_succ s t n h).trans hrun, hin, hP, fun k hk => ?_⟩
      cases k with
      | zero => exact ⟨s, rfl, hu⟩
      | succ k =>
        rw [run_succ s t k h]
        exact hrec k (Nat.le_of_succ_le_succ hk)

/-- With no event pending none ever comes. -/
theorem run_inputs_nil (n : Nat) (s u : State) (hi : s.inputs = []) (h : Host.Core.run Sys2Proof.core n s = .next u) :
    u.inputs = [] := by
  induction n generalizing s with
  | zero =>
    cases (run_zero s).symm.trans h
    exact hi
  | succ n ih =>
    obtain ⟨t, hc, -⟩ := s.complete_next
    obtain ⟨-, hinputs⟩ := s.complete_frame t hc
    rw [run_succ s t n ((step_nil s hi).trans hc)] at h
    exact ih t (hinputs.trans hi) h

theorem not_runsIntoWrite_of_no_inputs (P : Nat → Prop) (s : State) (hi : s.inputs = []) : ¬ RunsIntoWrite P s := by
  rintro ⟨n, u, a, b, rest, hrun, hin, -⟩
  rw [run_inputs_nil n s u hi hrun] at hin
  cases hin

/-- While a completion is on record the look ahead from the machine's own three bits finds a write exactly when the machine
runs into one (R274), by induction on the schedule. -/
theorem writeAhead_iff_runsIntoWrite (k : Checks) (s : State) (hu : s.unobserved ≠ []) :
    writeAhead s.config k s.watch s.inputs = true ↔ RunsIntoWrite (fun a => k.reads a = true) s := by
  induction hi : s.inputs generalizing s with
  | nil => simp [writeAhead, not_runsIntoWrite_of_no_inputs _ s hi]
  | cons e rest ih =>
    obtain ⟨t, ht⟩ := State.apply_next { s with inputs := rest } e
    obtain ⟨hconfig, hinputs⟩ := State.apply_frame _ t e ht
    have hempty := State.apply_unobserved_eq_nil_iff _ t e ht hu
    rw [runsIntoWrite_step _ s t ((step_cons s e rest hi).trans ht) hu, writeAhead_cons]
    refine or_congr (by simp [hi]) ?_
    constructor
    · rintro ⟨hgo, hahead⟩
      rw [← ih t (hempty.not.2 hgo) hinputs, hconfig, State.apply_watch _ t e ht fun he => hgo (.inl he)]
      exact hahead
    · intro hrun
      have hgo := hempty.not.1 hrun.unobserved
      rw [← ih t hrun.unobserved hinputs, hconfig, State.apply_watch _ t e ht fun he => hgo (.inl he)] at hrun
      exact ⟨hgo, hrun⟩

/-- A completion leaves the platform, IE and the schedule, sets DONE, clears BUSY, and is on record (R242, R274). -/
theorem exec_completes (i : Instr) (s t : State) (sn : Snapshot) (racy : Bool) (he : s.engine = .busy sn racy)
    (h : exec i s = .next t) :
    t.config = s.config ∧ t.watch = ⟨false, true, s.ie⟩ ∧ t.inputs = s.inputs ∧ t.unobserved ≠ [] := by
  rw [exec_of_busy i s sn racy he] at h
  cases h
  rcases s.completeWith_cases i sn racy (resultOf i s.config) with ⟨_, -, hc⟩ | ⟨-, hc⟩ <;> rw [hc] <;>
    exact ⟨rfl, rfl, rfl, by simp⟩

/-- Settles O22: the step's frame is the event's own, and the look ahead is exact by the run lemma above, from the state the
completion leaves. -/
theorem platformWriteIntoARegionRaces : Obligations.PlatformWriteIntoARegionRaces := by
  refine ⟨fun s a b rest hi => ?_, fun i s t sn racy he h => ?_⟩
  · have hengine {g : Engine} (he : s.engine = g) :
        (State.memWrite a b { s with inputs := rest }).engine = g.afterWrite a.toNat := he ▸ rfl
    refine ⟨_, step_cons s _ rest hi, rfl, fun hwf x => s.mem.read_write_wf a.toNat x b hwf, hengine,
      fun sn racy he => ⟨fun i hd hin => ?_, fun hout => ?_⟩⟩
    · exact (hengine he).trans (Engine.afterWrite_of_hit sn racy _ ((inFlightReads_iff sn _).2 ⟨i, hd, hin⟩))
    · refine (hengine he).trans (Engine.afterWrite_of_miss sn racy _ (Bool.eq_false_of_not_eq_true fun hhit => ?_))
      obtain ⟨i, hd, hin⟩ := (inFlightReads_iff sn _).1 hhit
      exact hout i hd hin
  · obtain ⟨hconfig, hwatch, hinputs, hu⟩ := exec_completes i s t sn racy he h
    have hahead : s.racesAhead (checksOf i sn) = writeAhead t.config (checksOf i sn) t.watch t.inputs := by
      rw [hconfig, hwatch, hinputs, State.racesAhead]
    rw [hahead, writeAhead_iff_runsIntoWrite _ t hu]
    simp only [RunsIntoWrite, reads_checksOf]

end Sys2Proof.Machine


/-! PROOFS. The statements about the encoding (spec/30_encoding.md): the decoder's table, the rows of R94, the packing of
results, and the host's statements. -/

namespace Sys2Proof.Machine

/-! ### The decoder's table -/

/-- R91's table from its other side: an opcode names the command whose word carries it. -/
theorem commandOf_eq_some_iff (opc : BitVec 8) (i : Instr) :
    commandOf opc = some i ↔ opc = (splitWord (encode i)).opc := by
  constructor
  · unfold commandOf
    split <;> rintro ⟨⟩ <;> exact BitVec.eq_of_toNat_eq ‹opc.toNat = _›
  · rintro rfl
    cases i <;> rfl

theorem splitWord_encode_rsvd (i : Instr) : (splitWord (encode i)).rsvd = 0 := by cases i <;> rfl

/-- The two fields are the whole word (R90). -/
theorem joinWord_splitWord (w : Word32) : joinWord (splitWord w) = w :=
  (BitVec.extractLsb'_append_extractLsb'_eq_extractLsb' rfl).trans BitVec.extractLsb'_eq_self

theorem CmdWord.rsvdZero_iff (c : CmdWord) : c.rsvdZero = true ↔ c.rsvd = 0 := beq_iff_eq

/-- The decoder's two checks (R92). -/
theorem decode_eq_some_iff (w : Word32) (i : Instr) :
    decode w = some i ↔ (splitWord w).rsvdZero = true ∧ commandOf (splitWord w).opc = some i := by
  unfold decode decodeCmd
  cases (splitWord w).rsvdZero <;> cases commandOf (splitWord w).opc <;> simp

/-- Settles O1: a word is its two fields, so a word that passes the decoder's two checks is the command's own. -/
theorem decodeExactlyTheElevenWords : Obligations.DecodeExactlyTheElevenWords := by
  unfold Obligations.DecodeExactlyTheElevenWords
  intro w i
  rw [decode_eq_some_iff, CmdWord.rsvdZero_iff, commandOf_eq_some_iff]
  constructor
  · rintro ⟨hrsvd, hopc⟩
    have hfields : splitWord w = splitWord (encode i) :=
      congrArg₂ CmdWord.mk hopc (hrsvd.trans (splitWord_encode_rsvd i).symm)
    rw [← joinWord_splitWord w, hfields, joinWord_splitWord]
  · rintro rfl
    exact ⟨splitWord_encode_rsvd i, rfl⟩

/-- Settles O2: the words are the table's. -/
theorem decodeTheTableWords : Obligations.DecodeTheTableWords := by
  unfold Obligations.DecodeTheTableWords
  decide

/-- An assigned opcode lies in 0x01 to 0x0B (R91, R92). -/
theorem opc_bounds_of_commandOf {opc : BitVec 8} {i : Instr} (h : commandOf opc = some i) :
    1 ≤ opc.toNat ∧ opc.toNat ≤ 0x0B := by
  rw [(commandOf_eq_some_iff opc i).1 h]
  cases i <;> decide

/-- R92's three kinds of illegal word are no command. -/
theorem decode_eq_none_of_illegal (w : Word32)
    (h : w.extractLsb' 0 8 = 0#8 ∨ 0x0B < (w.extractLsb' 0 8).toNat ∨ w.extractLsb' 8 24 ≠ 0#24) : decode w = none := by
  refine Option.eq_none_iff_forall_ne_some.2 fun i hi => ?_
  obtain ⟨hrsvd, hopc⟩ := (decode_eq_some_iff w i).1 hi
  obtain ⟨hlo, hhi⟩ : 1 ≤ (w.extractLsb' 0 8).toNat ∧ (w.extractLsb' 0 8).toNat ≤ 0x0B := opc_bounds_of_commandOf hopc
  rcases h with hzero | hlarge | hbits
  · simp [hzero] at hlo
  · omega
  · exact hbits ((CmdWord.rsvdZero_iff _).1 hrsvd)

/-- Settles O6: the word decodes to no command, so the engine's own step is the failure with E_ILLEGAL. -/
theorem illegalWordEndsInError : Obligations.IllegalWordEndsInError := by
  unfold Obligations.IllegalWordEndsInError
  intro s sn racy he hw
  exact ⟨_, (step_nil { s with inputs := [] } rfl).trans
    (State.complete_of_illegal { s with inputs := [] } sn racy he (decode_eq_none_of_illegal sn.cmd hw)), rfl⟩

/-! ### The rows of R94 -/

theorem resultOf_res_isSome_iff (i : Instr) (c : Config) (sn : Snapshot) (K D : Bytes) :
    (resultOf i c sn K D).res.isSome = true ↔ WritesRes i := by
  cases i <;> simp [resultOf_res_isSome, WritesRes]

theorem resultOf_otp_isSome_iff (i : Instr) (c : Config) (sn : Snapshot) (K D : Bytes) :
    (resultOf i c sn K D).otp.isSome = true ↔ WritesOtp i := by
  cases i <;> simp [resultOf_otp_isSome, WritesOtp]

theorem resultOf_cnt_isSome_iff (i : Instr) (c : Config) (sn : Snapshot) (K D : Bytes) :
    (resultOf i c sn K D).cnt.isSome = true ↔ WritesCnt i := by
  cases i <;> simp [resultOf_cnt_isSome, WritesCnt]

/-! Drawn results are of the same registers as computed ones (log 6). -/

theorem State.results_res_isSome (s : State) (k : Checks) (raced : Bool) (c : Commit) :
    (s.results k raced c).res.isSome = c.res.isSome := by
  rcases s.results_cases k raced c with h | h <;> simp [h]

theorem State.results_otp_isSome (s : State) (k : Checks) (raced : Bool) (c : Commit) :
    (s.results k raced c).otp.isSome = c.otp.isSome := by
  rcases s.results_cases k raced c with h | h <;> simp [h]

theorem State.results_cnt_isSome (s : State) (k : Checks) (raced : Bool) (c : Commit) :
    (s.results k raced c).cnt.isSome = c.cnt.isSome := by
  rcases s.results_cases k raced c with h | h <;> simp [h]

/-- Only E_BUS writes FADDR (R41, R246). -/
theorem CmdError.faddrAfter_of_code_ne_bus (e : CmdError) (old : Word64) (h : e.code ≠ .eBus) :
    e.faddrAfter old = old := by
  cases e with
  | bus a => exact absurd rfl h
  | _ => rfl

/-- Settles O20: an error commits nothing, and a success, computed or drawn, writes what the command's result has. -/
theorem commandsWriteOnlyTheirRegisters : Obligations.CommandsWriteOnlyTheirRegisters := by
  unfold Obligations.CommandsWriteOnlyTheirRegisters
  intro i s t sn racy he h
  rw [exec_of_busy i s sn racy he] at h
  cases h
  rcases s.completeWith_cases i sn racy (resultOf i s.config) with ⟨e, -, hc⟩ | ⟨-, hc⟩ <;> rw [hc]
  · exact ⟨fun _ => rfl, fun _ => rfl, fun _ => ⟨rfl, rfl, rfl⟩, fun _ => rfl, e.faddrAfter_of_code_ne_bus s.faddr,
      rfl, rfl, rfl, rfl, rfl, rfl, rfl, rfl, rfl, rfl⟩
  · refine ⟨fun hw => s.succeed_h_of_none _ ?_, fun hw => s.succeed_res_of_none _ ?_, fun hw => s.succeed_otp_of_none _ ?_,
      fun hw => s.succeed_cnt_of_none _ ?_, fun _ => rfl, rfl, rfl, rfl, rfl, rfl, rfl, rfl, rfl, rfl, rfl⟩
    · rw [State.results_h_isSome, ← Bool.not_eq_true, resultOf_h_isSome_iff]; exact hw
    · rw [State.results_res_isSome, ← Bool.not_eq_true, resultOf_res_isSome_iff]; exact hw
    · rw [State.results_otp_isSome, ← Bool.not_eq_true, resultOf_otp_isSome_iff]; exact hw
    · rw [State.results_cnt_isSome, ← Bool.not_eq_true, resultOf_cnt_isSome_iff]; exact hw

/-! The operands a command lists are all its completion reads. -/

theorem checksOf_congr (i : Instr) (a b : Snapshot) (h : SameListed i a b) : checksOf i a = checksOf i b := by
  cases i <;> simp_all [SameListed, checksOf, Snapshot.keyRegion, Snapshot.dataRegion]

theorem resultOf_congr (i : Instr) (c : Config) (a b : Snapshot) (h : SameListed i a b) :
    resultOf i c a = resultOf i c b := by
  cases i <;> simp_all [SameListed, resultOf]

/-- The checks of R244 read DIGITS, STEP, KLEN and LEN only where the command has them. -/
theorem validate_congr (c : Config) (k : Checks) (a b : Snapshot) (hdigits : k.digits = true → a.digits = b.digits)
    (hstep : k.step = true → a.step = b.step) (hklen : k.klen = true → a.klen = b.klen)
    (hlen : k.lenMax ≠ none → a.len = b.len) : validate c k a = validate c k b := by
  have digitsCheck_eq : digitsCheck k a = digitsCheck k b := by
    cases h : k.digits <;> simp_all [digitsCheck]
  have stepCheck_eq : stepCheck k a = stepCheck k b := by
    cases h : k.step <;> simp_all [stepCheck]
  have klenCheck_eq : klenCheck k a = klenCheck k b := by
    cases h : k.klen <;> simp_all [klenCheck]
  have lenCheck_eq : lenCheck k a = lenCheck k b := by
    cases h : k.lenMax <;> simp_all [lenCheck]
  rw [validate_eq, validate_eq, digitsCheck_eq, stepCheck_eq, klenCheck_eq, lenCheck_eq]

theorem validate_checksOf_congr (i : Instr) (c : Config) (a b : Snapshot) (h : SameListed i a b) :
    validate c (checksOf i b) a = validate c (checksOf i b) b := by
  apply validate_congr <;> cases i <;> simp_all [SameListed, checksOf]

/-- A completion reads of its snapshot the checks, the outcome of validation, and the result. -/
theorem State.completeWith_congr (i : Instr) (a b : Snapshot) (racy : Bool) (f : Snapshot → Bytes → Bytes → Commit)
    (s : State) (hk : checksOf i a = checksOf i b)
    (hv : validate s.config (checksOf i b) a = validate s.config (checksOf i b) b) (hf : f a = f b) :
    s.completeWith i a racy f = s.completeWith i b racy f := by
  simp only [State.completeWith, State.outcome, hk, hv, hf]

/-- A completion ends the engine's phase, and reads no field of it but through its own arguments (R50). -/
theorem State.completeWith_withEngine (i : Instr) (sn : Snapshot) (racy : Bool) (f : Snapshot → Bytes → Bytes → Commit)
    (s : State) (g : Engine) : ({ s with engine := g } : State).completeWith i sn racy f = s.completeWith i sn racy f := by
  cases hout : s.outcome (checksOf i sn) sn (racy || s.racesAhead (checksOf i sn)) with
  | some e =>
    rw [s.completeWith_of_outcome_error i sn racy f e hout,
      State.completeWith_of_outcome_error i sn racy f { s with engine := g } e hout]
    rfl
  | none =>
    rw [s.completeWith_of_outcome_success i sn racy f hout,
      State.completeWith_of_outcome_success i sn racy f { s with engine := g } hout]
    rfl

/-- Settles O25: checks, validation and result of a command read only the operands it lists. -/
theorem unlistedOperandsCannotMatter : Obligations.UnlistedOperandsCannotMatter := by
  unfold Obligations.UnlistedOperandsCannotMatter
  intro i s a b racy h
  rw [exec_of_busy i _ a racy rfl, exec_of_busy i _ b racy rfl, State.completeWith_withEngine,
    State.completeWith_withEngine]
  exact congrArg _ (s.completeWith_congr i a b racy _ (checksOf_congr i a b h)
    (validate_checksOf_congr i s.config a b h) (resultOf_congr i s.config a b h))

/-! ### The packing of results -/

open BitVec in
/-- Octet `j` of the word at `i`, from the top (R11). -/
theorem beU32_octet (B : Bytes) (i j : Nat) (h : j < 4) : (beU32 B i).extractLsb' (24 - 8 * j) 8 = byteAt B (i + j) := by
  interval_cases j
  · exact (extractLsb'_append_eq_of_le (by decide)).trans <| (extractLsb'_append_eq_of_le (by decide)).trans
      extractLsb'_append_eq_left
  · exact (extractLsb'_append_eq_of_le (by decide)).trans <| (extractLsb'_append_eq_of_le (by decide)).trans
      extractLsb'_append_eq_right
  · exact (extractLsb'_append_eq_of_le (by decide)).trans extractLsb'_append_eq_right
  · exact extractLsb'_append_eq_right

theorem byteAt_of_length_le (B : Bytes) (i : Nat) (h : B.length ≤ i) : byteAt B i = 0 := List.getD_eq_default B 0 h

theorem byteAt_append_zeros (B : Bytes) (n i : Nat) : byteAt (B ++ zeros n) i = byteAt B i := by
  rcases Nat.lt_or_ge i B.length with h | h
  · exact List.getD_append B _ 0 i h
  · rw [byteAt_of_length_le B i h, byteAt, List.getD_append_right B _ 0 i h, zeros]
    simp

open BitVec in
/-- `be_u32` reads back what `be4` wrote (R11). -/
theorem beU32_be4 (v : Word32) : beU32 (be4 v) 0 = v := by
  change v.extractLsb' 24 8 ++ v.extractLsb' 16 8 ++ v.extractLsb' 8 8 ++ v.extractLsb' 0 8 = v
  rw [extractLsb'_append_extractLsb'_eq_extractLsb' (by decide), extractLsb'_append_extractLsb'_eq_extractLsb' (by decide),
    extractLsb'_append_extractLsb'_eq_extractLsb' (by decide)]
  exact extractLsb'_eq_self

/-- Word `i` of a digest is Hi (R96, R120). -/
theorem beU32_digest (h : Sha1State) (i : Fin 5) : beU32 h.digest (4 * i.val) = h.get i := by
  fin_cases i <;> exact beU32_be4 _

/-- Octet `4k + j` of a whole number of words is the `j`-th octet of result word `k` (R95). -/
theorem pack_octet (B : Bytes) (k : Fin 16) (j : Nat) (hB : B.length % 4 = 0) (hj : j < 4) :
    ((pack B)[k]).extractLsb' (24 - 8 * j) 8 = byteAt B (4 * k.val + j) := by
  rw [Fin.getElem_fin, getElem_pack]
  split
  · exact beU32_octet B _ j hj
  · rw [byteAt_of_length_le B _ (by omega)]
    exact BitVec.extractLsb'_zero

/-- Settles O59: word by word by the octets of `be_u32`; past the result's end both sides are 0. -/
theorem resultPackingIsBigEndian : Obligations.ResultPackingIsBigEndian := by
  refine ⟨pack_octet, fun z k j _ hj => ?_, fun h i => ?_, fun h k hk => ?_⟩
  · rw [Fin.getElem_fin, getElem_packstr, beU32_octet _ _ j hj, byteAt_append_zeros]
  · rw [getElem_pack, if_pos (by rw [length_digest]; omega), beU32_digest]
  · rw [Fin.getElem_fin, getElem_pack, if_neg (by rw [length_digest]; omega)]

/-! ### The host's statements -/

/-- The core's step with `e` next is what the host's access makes of the core. -/
theorem State.take_of_step {e : Event} {s t : State} (h : step { s with inputs := e :: s.inputs } = .next t) :
    s.take e = t := by simp only [State.take, h]

/-- A step with an event pending answers a next state. -/
theorem step_next (s : State) (e : Event) (rest : List Event) (h : s.inputs = e :: rest) : ∃ t, step s = .next t :=
  step_cons s e rest h ▸ State.apply_next _ e

theorem HostRun.hostTurn_wr (p : HostRun) (r : Reg) (v : Word32) (h : p.prog[p.at_]? = some (.wr r v)) :
    p.hostTurn = { p with
      at_ := p.at_ + 1
      trace := .w r.offset v :: p.trace
      core := p.core.take (writeEvent p.core r v) } := by
  simp only [HostRun.hostTurn, h]
  rfl

theorem HostRun.hostTurn_rd (p : HostRun) (r : Reg) (k : Nat) (h : p.prog[p.at_]? = some (.rd r k)) :
    p.hostTurn = { p with
      at_ := p.at_ + 1
      trace := .r r.offset :: p.trace
      vars := (k, (p.core.take (readEvent p.core r)).replyData) :: p.vars
      core := p.core.take (readEvent p.core r) } := by
  simp only [HostRun.hostTurn, h]
  rfl

/-- The latest value a variable was given is the one it holds (R99). -/
theorem HostRun.var_of_vars {p : HostRun} {k : Nat} {v : Word32} {vs : List (Nat × Word32)} (h : p.vars = (k, v) :: vs) :
    p.var k = v := by simp [HostRun.var, h]

/-- A valid read of a register brings the host its value (R45, R101). -/
theorem State.replyData_take_readEvent (s : State) (r : Reg) (h : s.busy = true → r.isResult = false) :
    (s.take (readEvent s r)).replyData = s.readReg r := by
  have hvalid : (r.isResult && s.busy) = false := by cases hb : s.busy <;> simp [hb, h]
  have hstep := step_readEvent_of_valid { s with inputs := readEvent s r :: s.inputs } r s.inputs rfl hvalid
  rw [State.take_of_step hstep]
  exact s.readReg_withOwn _ s.reply s.draws s.unobserved r

/-- Settles O60: each statement's turn is one event of the core, and the expansion of `run` is R100's. -/
theorem hostStatementsAreTransactions : Obligations.HostStatementsAreTransactions := by
  refine ⟨fun p r v h => ?_, fun p r k h hread => ?_, fun i fresh => rfl⟩
  · rw [p.hostTurn_wr r v h]
    obtain ⟨t, ht⟩ := step_next { p.core with inputs := writeEvent p.core r v :: p.core.inputs } _ _ rfl
    exact ⟨rfl, (congrArg _ (State.take_of_step ht)).trans ht.symm⟩
  · rw [p.hostTurn_rd r k h]
    exact ⟨rfl, (HostRun.var_of_vars rfl).trans (p.core.replyData_take_readEvent r hread)⟩

end Sys2Proof.Machine


/-! PROOFS. The statements about SHA-1 (spec/40_sha1.md): padding and schedule, the three commands, and the chain of
SHA1_BLOCK over a message the host has padded. -/

namespace Sys2Proof.Machine

/-! ### The checks of a region, in the terms of the statements (R74, R246, R78) -/

theorem regionChecks_of_not_fits (c : Config) {b : Word64} {n : Nat} (h : ¬ Fits b n) :
    (rangeCheck (some ⟨b.toNat, n⟩)).or (busCheck c (some ⟨b.toNat, n⟩)) = some .range := by
  rw [rangeCheck_eq_some b n (Nat.lt_of_not_le h), Option.some_or]

theorem regionChecks_of_lowestUnreadable {c : Config} {b a : Word64} {n : Nat} (hfits : Fits b n)
    (h : LowestUnreadable c b n a) :
    (rangeCheck (some ⟨b.toNat, n⟩)).or (busCheck c (some ⟨b.toNat, n⟩)) = some (.bus a) := by
  obtain ⟨hlo, hhi, hbad, hmin⟩ := h
  rw [(rangeCheck_eq_none b n).2 hfits, Option.none_or, busCheck_eq_some c ⟨b.toNat, n⟩ a.toNat hlo hhi hbad hmin,
    BitVec.ofNat_toNat, BitVec.setWidth_eq]

theorem regionChecks_of_readable {c : Config} {b : Word64} {n : Nat} (hfits : Fits b n) (h : Readable c b n) :
    (rangeCheck (some ⟨b.toNat, n⟩)).or (busCheck c (some ⟨b.toNat, n⟩)) = none := by
  rw [(rangeCheck_eq_none b n).2 hfits, Option.none_or]
  exact (busCheck_eq_none c ⟨b.toNat, n⟩).2 h

theorem lowestIn_of_noSideEffects {c : Config} {b : Word64} {n : Nat} (h : NoSideEffects c b n) :
    lowestIn c.readSideEffects ⟨b.toNat, n⟩ = none :=
  (lowestIn_eq_none _ _).2 fun a ha =>
    have ⟨hlo, hhi⟩ := (Region.contains_iff _ a).1 ha
    h a hlo hhi

/-- A command with no key region meets side effects only in its data region. -/
theorem Checks.meetsSideEffects_of_data {c : Config} {k : Checks} {b : Word64} {n : Nat} (hkey : k.key = none)
    (hdata : k.data = some ⟨b.toNat, n⟩) (h : NoSideEffects c b n) : k.meetsSideEffects c = false := by
  simp [Checks.meetsSideEffects, hkey, hdata, lowestIn_of_noSideEffects h]

/-- A command that reads a data region only has the checks of LEN and of that region (R245). -/
theorem validate_of_data (c : Config) {k : Checks} (sn : Snapshot) (hdigits : k.digits = false) (hstep : k.step = false)
    (hklen : k.klen = false) (hkey : k.key = none) :
    validate c k sn = (lenCheck k sn).or ((rangeCheck k.data).or (busCheck c k.data)) := by
  rw [validate_eq, digitsCheck_absent k sn hdigits, stepCheck_absent k sn hstep, klenCheck_absent k sn hklen, hkey]
  rfl

/-! ### The completion of a command nobody races -/

/-- A command nobody races ends with the error its validation finds; with none, on memory without read side effects, it
commits its result and leaves the rest (R242). -/
theorem Unraced.exec_next {i : Instr} {s : State} {sn : Snapshot} (h : Unraced i s sn) :
    ∃ t, exec i s = .next t ∧
      (∀ e, validate s.config (checksOf i sn) sn = some e → FailedWith s t e.code (e.faddrAfter s.faddr)) ∧
      (validate s.config (checksOf i sn) sn = none → (checksOf i sn).meetsSideEffects s.config = false →
        t = (finished s t).commit
          (resultOf i s.config sn (s.mem.region (checksOf i sn).key) (s.mem.region (checksOf i sn).data))) := by
  obtain ⟨hbusy, hrace⟩ := h
  refine ⟨_, exec_of_busy i s sn false hbusy, fun e he => ?_, fun hvalid hquiet => ?_⟩
  · rw [State.completeWith_of_error i sn _ s e hrace he]
    rfl
  · rw [State.completeWith_of_valid i sn _ s hrace hvalid hquiet]
    rfl

/-- SHA1_INIT has no operand region, so nothing races it. -/
theorem unraced_sha1Init {s : State} {sn : Snapshot} (h : s.engine = .busy sn false) : Unraced .sha1Init s sn :=
  ⟨h, writeAhead_of_no_region _ _ rfl rfl _ _⟩

/-! ### The three commands -/

/-- Settles O8: SHA1_INIT has no check and no region, so it always commits the initial value. -/
theorem sha1InitLoadsTheInitialValue : Obligations.Sha1InitLoadsTheInitialValue := by
  refine ⟨by decide, fun s sn h => ?_⟩
  obtain ⟨t, hexec, -, hsuccess⟩ := (unraced_sha1Init h).exec_next
  have ht : t = (finished s t).commit { h := some .iv } := hsuccess rfl rfl
  have hh : t.h = .iv := congrArg State.h ht
  exact ⟨t, hexec, ht, hh⟩

/-- Settles O9: SHA1_BLOCK has the checks of its block only, and commits the compression of the block. -/
theorem sha1BlockCompressesOneBlock : Obligations.Sha1BlockCompressesOneBlock := by
  refine ⟨by decide, fun s sn h => ?_⟩
  obtain ⟨t, hexec, hfail, hsuccess⟩ := h.exec_next
  rw [validate_of_data s.config sn rfl rfl rfl rfl, lenCheck_absent _ sn rfl, Option.none_or] at hfail hsuccess
  exact ⟨t, hexec, fun hwraps => hfail .range (regionChecks_of_not_fits s.config hwraps),
    fun hfits a hlow => hfail (.bus a) (regionChecks_of_lowestUnreadable hfits hlow),
    fun hfits hread hquiet =>
      hsuccess (regionChecks_of_readable hfits hread) (Checks.meetsSideEffects_of_data rfl rfl hquiet)⟩

/-- Settles O10: SHA1 has the check of LEN, which comes first, and those of the message, and commits the digest. -/
theorem sha1DigestsTheMessage : Obligations.Sha1DigestsTheMessage := by
  refine ⟨by decide, fun s sn h => ?_⟩
  obtain ⟨t, hexec, hfail, hsuccess⟩ := h.exec_next
  rw [validate_of_data s.config sn rfl rfl rfl rfl] at hfail hsuccess
  refine ⟨t, hexec, fun hlong => hfail .len (by rw [lenCheck_fail _ sn _ rfl hlong, Option.some_or]),
    fun hle hwraps => hfail .range ?_, fun hle hfits a hlow => hfail (.bus a) ?_, fun hle hfits hread hquiet =>
      hsuccess ?_ (Checks.meetsSideEffects_of_data rfl rfl hquiet)⟩ <;>
    rw [lenCheck_pass _ sn _ rfl hle, Option.none_or]
  · exact regionChecks_of_not_fits s.config hwraps
  · exact regionChecks_of_lowestUnreadable hfits hlow
  · exact regionChecks_of_readable hfits hread

/-! ### Padding and schedule -/

/-- Settles O49: the zero octets are those of `sha1PadZeros`; the counts are arithmetic modulo 64 and 512. -/
theorem sha1PaddingFillsBlocks : Obligations.Sha1PaddingFillsBlocks := by
  intro M
  have hz : sha1PadZeros M.length = (119 - M.length % 64) % 64 := rfl
  refine ⟨sha1PadZeros M.length, by omega, by omega, rfl, ?_, by omega⟩
  simp only [sha1Pad, List.length_append, List.length_singleton, length_zeros, length_be8]
  omega

theorem getD_sha1Parse (B : Bytes) (t : Nat) (h : t < 16) : (sha1Parse B).getD t 0 = beU32 B (4 * t) := by
  simp [sha1Parse, List.getD, h]

theorem take_sha1Extend (n : Nat) (W : List Word32) : (sha1Extend n W).take W.length = W := by
  induction n generalizing W with
  | zero => exact List.take_length
  | succ n ih => simpa [sha1Extend, List.take_take] using congrArg (List.take W.length) (ih (W ++ [sha1NextWord W]))

/-- An appended word is R114's next word after the words before it, by induction on how many are still to append. -/
theorem getD_sha1Extend_appended (n t : Nat) (W : List Word32) (hlo : W.length ≤ t) (hhi : t < W.length + n) :
    (sha1Extend n W).getD t 0 = sha1NextWord ((sha1Extend n W).take t) := by
  induction n generalizing W with
  | zero => omega
  | succ n ih =>
    have hlen : (W ++ [sha1NextWord W]).length = W.length + 1 := by simp
    rcases Nat.eq_or_lt_of_le hlo with rfl | hlt
    · rw [take_sha1Extend, sha1Extend, getD_sha1Extend n _ _ (by omega)]
      simp
    · exact ih _ (by omega) (by omega)

/-- The next word after the first `t` of a list of words is R114's recurrence over them. -/
theorem sha1NextWord_take (W : List Word32) (t : Nat) (hlo : 16 ≤ t) (hhi : t ≤ W.length) :
    sha1NextWord (W.take t) =
      (W.getD (t - 3) 0 ^^^ W.getD (t - 8) 0 ^^^ W.getD (t - 14) 0 ^^^ W.getD (t - 16) 0).rotateLeft 1 := by
  have hget (i : Nat) (hi : i < t) : (W.take t).getD i 0 = W.getD i 0 := by simp [List.getD, hi]
  rw [sha1NextWord, List.length_take_of_le hhi, hget _ (by omega), hget _ (by omega), hget _ (by omega),
    hget _ (by omega)]

/-- Settles O50: the first sixteen words stay as parsed, and each later one is appended by the recurrence. -/
theorem sha1ScheduleRecurrence : Obligations.Sha1ScheduleRecurrence := by
  refine fun B => ⟨length_sha1Schedule B, fun t ht => ?_, fun t hlo hhi => ?_⟩
  · rw [sha1Schedule, getD_sha1Extend 64 t _ (by simpa using ht), getD_sha1Parse B t ht, beU32]
  · have hlen : (sha1Parse B).length = 16 := length_sha1Parse B
    rw [← sha1NextWord_take (sha1Schedule B) t hlo (by rw [length_sha1Schedule]; omega)]
    exact getD_sha1Extend_appended 64 t (sha1Parse B) (by omega) (by omega)

/-! ### Runs without an error -/

/-- `n` steps lead from one state to the other, and ERR is 0 after each of them. -/
inductive CleanRun : Nat → State → State → Prop
  | refl (s : State) : CleanRun 0 s s
  | head {s t u : State} {n : Nat} : step s = .next t → t.status.err = false → CleanRun n t u → CleanRun (n + 1) s u

theorem CleanRun.trans {m n : Nat} {s t u : State} (h : CleanRun m s t) (h' : CleanRun n t u) : CleanRun (m + n) s u := by
  induction h with
  | refl => exact (Nat.zero_add n).symm ▸ h'
  | head hstep herr _ ih => exact Nat.succ_add _ n ▸ .head hstep herr (ih h')

/-- A clean run is a run of the machine. -/
theorem CleanRun.run {n : Nat} {s t : State} (h : CleanRun n s t) : Host.Core.run Sys2Proof.core n s = .next t := by
  induction h with
  | refl s => exact run_zero s
  | head hstep _ _ ih => exact (run_succ _ _ _ hstep).trans ih

theorem CleanRun.err_eq_false {n : Nat} {s t : State} (h : CleanRun n s t) (k : Nat) (hlo : 1 ≤ k) (hhi : k ≤ n) :
    ∃ u, Host.Core.run Sys2Proof.core k s = .next u ∧ u.status.err = false := by
  induction h generalizing k with
  | refl => omega
  | @head s t u n hstep herr _ ih =>
    obtain ⟨k, rfl⟩ := Nat.exists_eq_add_of_le' hlo
    rw [run_succ s t k hstep]
    cases k with
    | zero => exact ⟨t, run_zero t, herr⟩
    | succ k => exact ih (k + 1) (by omega) (by omega)

/-! ### One command of the host -/

/-- The schedule holds no platform write. -/
def NoPlatformWrite (es : List Event) : Prop := ∀ a b, Event.memWrite a b ∉ es

/-- With no platform write to come nothing races a command that nothing has raced so far (R274). -/
theorem unraced_of_noPlatformWrite {i : Instr} {s : State} {sn : Snapshot} (hbusy : s.engine = .busy sn false)
    (h : NoPlatformWrite s.inputs) : Unraced i s sn := by
  refine ⟨hbusy, Bool.eq_false_of_not_eq_true fun hrace => ?_⟩
  obtain ⟨a, b, hmem, -⟩ := writeAhead_write _ _ _ _ hrace
  exact h a b hmem

/-- The state in which the host's command `i` is in flight, its CMD write taken (R240). -/
def State.started (i : Instr) (rest : List Event) (s : State) : State :=
  { s.accept (encode i) with inputs := rest, reply := .written }

/-- A host that writes a command to an idle core and lets it complete: the core accepts it, then runs it (R240, R242). -/
theorem cleanRun_command {i : Instr} {s t : State} {rest : List Event}
    (hin : s.inputs = writeEvent s .cmd (encode i) :: .complete :: rest) (hidle : s.engine = .idle)
    (hexec : exec i (s.started i rest) = .next t) (herr : t.status.err = false) : CleanRun 2 s t := by
  have haccept : step s = .next (s.started i (.complete :: rest)) := by
    rw [step_writeEvent s .cmd _ _ hin]
    simp [State.writeReg, State.busy, hidle, State.started]
  have hcomplete : step (s.started i (.complete :: rest)) = .next t := by
    rw [step_cons _ .complete rest rfl]
    exact (State.complete_of_command (s.started i rest) _ _ i rfl
      ((decodeExactlyTheElevenWords _ i).2 rfl)).trans hexec
  exact .head haccept rfl (.head hcomplete herr (.refl t))

/-! ### Octets the host has stored -/

/-- The octets `P` lie at `base`, in memory that is readable and has no read side effects (R71, R74, R78). -/
structure StoredAt (s : State) (base : Word64) (P : Bytes) : Prop where
  fits     : Fits base P.length
  readable : Readable s.config base P.length
  quiet    : NoSideEffects s.config base P.length
  bytes    : s.mem.bytes base.toNat P.length = P

theorem StoredAt.congr {s t : State} {base : Word64} {P : Bytes} (h : StoredAt s base P) (hc : t.config = s.config)
    (hm : t.mem = s.mem) : StoredAt t base P :=
  ⟨h.fits, hc ▸ h.readable, hc ▸ h.quiet, hm ▸ h.bytes⟩

theorem length_blockAt {P : Bytes} {k j : Nat} (h : k * j + k ≤ P.length) : (blockAt k P j).length = k := by
  rw [blockAt, List.length_take, List.length_drop]
  omega

theorem toNat_blockAddress {base : Word64} {P : Bytes} {j : Nat} (hfits : Fits base P.length)
    (h : 64 * j + 64 ≤ P.length) : (base + BitVec.ofNat 64 (64 * j)).toNat = base.toNat + 64 * j := by
  unfold Fits at hfits
  rw [BitVec.toNat_add, BitVec.toNat_ofNat]
  omega

/-- Block `j` of the stored octets is stored at its own address. -/
theorem StoredAt.block {s : State} {base : Word64} {P : Bytes} (hP : StoredAt s base P) {j : Nat}
    (h : 64 * j + 64 ≤ P.length) : StoredAt s (base + BitVec.ofNat 64 (64 * j)) (blockAt 64 P j) := by
  have haddr := toNat_blockAddress hP.fits h
  have hlen : (blockAt 64 P j).length = 64 := length_blockAt h
  have hfits := hP.fits
  unfold Fits at hfits
  refine ⟨by unfold Fits; omega, fun a hlo hhi => hP.readable a (by omega) (by omega),
    fun a hlo hhi => hP.quiet a (by omega) (by omega), ?_⟩
  rw [haddr, hlen, ← s.mem.blockAt_bytes base.toNat P.length 64 j h, hP.bytes]

/-! ### The chain of SHA1_BLOCK -/

/-- The transactions of one block at address `a`. -/
def blockEvents (s : State) (a : Word64) : List Event :=
  [writeEvent s .srcLo (loHalf a), writeEvent s .srcHi (hiHalf a), writeEvent s .cmd 0x00000002, .complete]

theorem chainEvents_succ (s : State) (base : Word64) (n : Nat) :
    chainEvents s base (n + 1) = chainEvents s base n ++ blockEvents s (base + BitVec.ofNat 64 (64 * n)) := by
  simp [chainEvents, blockEvents, List.range_succ]

theorem blockEvents_congr {s t : State} (h : t.config = s.config) (a : Word64) : blockEvents t a = blockEvents s a := by
  simp only [blockEvents, writeEvent, h]

theorem NoPlatformWrite.blockEvents_append {rest : List Event} (h : NoPlatformWrite rest) (s : State) (a : Word64) :
    NoPlatformWrite (blockEvents s a ++ rest) := by
  intro x b
  simp [blockEvents, writeEvent, h x b]

/-- Where the chain that began in `s` has come to: the core is idle with ERR = 0, H0..H4 hold `h`, `rest` is still to come,
and the platform, memory and RES are as they were. -/
structure ChainedTo (s : State) (h : Sha1State) (rest : List Event) (t : State) : Prop where
  config : t.config = s.config
  mem    : t.mem = s.mem
  res    : t.res = s.res
  idle   : t.engine = .idle
  noErr  : t.status.err = false
  state  : t.h = h
  inputs : t.inputs = rest

theorem ChainedTo.trans {s t u : State} {h h' : Sha1State} {rest rest' : List Event} (ht : ChainedTo s h rest t)
    (hu : ChainedTo t h' rest' u) : ChainedTo s h' rest' u where
  config := hu.config.trans ht.config
  mem := hu.mem.trans ht.mem
  res := hu.res.trans ht.res
  idle := hu.idle
  noErr := hu.noErr
  state := hu.state
  inputs := hu.inputs

/-- A successful completion that writes H0..H4 only goes one link further. -/
theorem ChainedTo.of_finished {s a t : State} {h : Sha1State} {rest : List Event} (ht : t = { finished a t with h := h })
    (hc : a.config = s.config) (hm : a.mem = s.mem) (hr : a.res = s.res) (hin : a.inputs = rest) :
    ChainedTo s h rest t where
  config := (congrArg State.config ht).trans hc
  mem := (congrArg State.mem ht).trans hm
  res := (congrArg State.res ht).trans hr
  idle := congrArg State.engine ht
  noErr := congrArg (·.status.err) ht
  state := congrArg State.h ht
  inputs := (congrArg State.inputs ht).trans hin

/-- SHA1_INIT starts the chain. -/
theorem chain_init (s : State) (base : Word64) (rest : List Event) (hidle : s.engine = .idle)
    (hin : s.inputs = chainEvents s base 0 ++ rest) : ∃ t, CleanRun 2 s t ∧ ChainedTo s .iv rest t := by
  obtain ⟨t, hexec, ht, -⟩ := sha1InitLoadsTheInitialValue.2 (s.started .sha1Init rest) _ rfl
  have hlink : ChainedTo s .iv rest t := .of_finished ht rfl rfl rfl rfl
  exact ⟨t, cleanRun_command (i := .sha1Init) hin hidle hexec hlink.noErr, hlink⟩

/-- The state in which the host has set SRC to `a`. -/
def State.withSrc (a : Word64) (rest : List Event) (s : State) : State :=
  { s with
    operands := { s.operands with srcLo := loHalf a, srcHi := hiHalf a }
    inputs := rest
    reply := .written }

theorem State.snapshot_withSrc_src (s : State) (a : Word64) (rest : List Event) (v : Word32) :
    ((s.withSrc a rest).snapshot v).src = a := hiHalf_append_loHalf a

/-- The host's two writes set SRC (R39). -/
theorem cleanRun_withSrc (s : State) (a : Word64) (rest : List Event) (herr : s.status.err = false)
    (hin : s.inputs = writeEvent s .srcLo (loHalf a) :: writeEvent s .srcHi (hiHalf a) :: rest) :
    CleanRun 2 s (s.withSrc a rest) :=
  .head (step_writeEvent s .srcLo _ _ hin) herr <|
    .head (step_writeEvent { s.writeReg .srcLo (loHalf a) with
      inputs := writeEvent s .srcHi (hiHalf a) :: rest, reply := .written } .srcHi _ rest rfl) herr (.refl _)

/-- SHA1_BLOCK on a stored block compresses it into H: one link of the chain (R123). -/
theorem chain_block {s : State} {a : Word64} {B : Bytes} {rest : List Event} (hidle : s.engine = .idle)
    (herr : s.status.err = false) (hin : s.inputs = blockEvents s a ++ rest) (hrest : NoPlatformWrite rest)
    (hB : StoredAt s a B) (hlen : B.length = 64) :
    ∃ t, CleanRun 4 s t ∧ ChainedTo s (sha1Compress s.h B) rest t := by
  obtain ⟨hfits, hread, hquiet, hbytes⟩ := hB
  rw [hlen] at hfits hread hquiet hbytes
  let m := s.withSrc a (writeEvent s .cmd 0x00000002 :: .complete :: rest)
  have hsrc : (m.snapshot (encode .sha1Block)).src = a := s.snapshot_withSrc_src a _ _
  obtain ⟨t, hexec, -, -, hsuccess⟩ := sha1BlockCompressesOneBlock.2 (m.started .sha1Block rest)
    (m.snapshot (encode .sha1Block)) (unraced_of_noPlatformWrite rfl hrest)
  rw [hsrc] at hsuccess
  have hlink : ChainedTo s (sha1Compress s.h (s.mem.bytes a.toNat 64)) rest t :=
    .of_finished (hsuccess hfits hread hquiet) rfl rfl rfl rfl
  rw [hbytes] at hlink
  exact ⟨t, (cleanRun_withSrc s a _ herr hin).trans (cleanRun_command (i := .sha1Block) rfl hidle hexec hlink.noErr),
    hlink⟩

/-- After SHA1_INIT and `n` SHA1_BLOCKs H is the compression of the first `n` blocks (R120, R123), by induction on `n`. -/
theorem chain_blocks {s : State} {base : Word64} {P : Bytes} (hP : StoredAt s base P) (hidle : s.engine = .idle) (n : Nat)
    (hn : 64 * n ≤ P.length) (rest : List Event) (hrest : NoPlatformWrite rest)
    (hin : s.inputs = chainEvents s base n ++ rest) :
    ∃ t, CleanRun (chainEvents s base n).length s t ∧ ChainedTo s (sha1Blocks P n .iv) rest t := by
  induction n generalizing rest with
  | zero => exact chain_init s base rest hidle hin
  | succ n ih =>
    have hblock : 64 * n + 64 ≤ P.length := by omega
    rw [chainEvents_succ, List.append_assoc] at hin
    obtain ⟨t, hrun, ht⟩ := ih (by omega) _ (hrest.blockEvents_append s _) hin
    have hevents : t.inputs = blockEvents t (base + BitVec.ofNat 64 (64 * n)) ++ rest := by
      rw [ht.inputs, blockEvents_congr ht.config]
    obtain ⟨u, hrun', hu⟩ := chain_block ht.idle ht.noErr hevents hrest ((hP.block hblock).congr ht.config ht.mem)
      (length_blockAt hblock)
    rw [ht.state] at hu
    refine ⟨u, ?_, ht.trans hu⟩
    rw [chainEvents_succ, List.length_append]
    exact hrun.trans hrun'

/-- Settles O51: the padded message is stored, and the chain over all its blocks is `sha1_state`. -/
theorem chainedBlocksReproduceSha1 : Obligations.ChainedBlocksReproduceSha1 := by
  intro s M base hidle hfits hread hquiet hbytes events
  have hstored : StoredAt { s with inputs := events } base (sha1Pad M) := ⟨hfits, hread, hquiet, hbytes⟩
  obtain ⟨t, hrun, ht⟩ := chain_blocks hstored hidle ((sha1Pad M).length / 64) (Nat.mul_div_le _ _) []
    (fun a b => List.not_mem_nil) (List.append_nil events).symm
  exact ⟨t, hrun.run, ht.state, ht.inputs, by rw [State.busy, ht.idle], ht.res, hrun.err_eq_false⟩

end Sys2Proof.Machine


/-! PROOFS. The statements about USHA0 (spec/41_usha0.md): the command, the padding, the extender and pass_mixer. -/

namespace Sys2Proof.Machine

/-! ### The command -/

theorem validate_usha0_of_long (c : Config) {sn : Snapshot} (h : 2 ^ 61 - 1 < sn.len.toNat) :
    validate c (checksOf .usha0 sn) sn = some .len := by
  rw [validate_of_data c sn rfl rfl rfl rfl, lenCheck_fail _ sn _ rfl h, Option.some_or]

/-- Within MAX_LEN the checks left are those of the message's region. -/
theorem validate_usha0_of_le (c : Config) {sn : Snapshot} (h : sn.len.toNat ≤ 2 ^ 61 - 1) :
    validate c (checksOf .usha0 sn) sn =
      (rangeCheck (some ⟨sn.src.toNat, sn.len.toNat⟩)).or (busCheck c (some ⟨sn.src.toNat, sn.len.toNat⟩)) := by
  rw [validate_of_data c sn rfl rfl rfl rfl, lenCheck_pass _ sn _ rfl h, Option.none_or]
  rfl

/-- Settles O11: USHA0 checks LEN first and then the region of the message, and commits the packed digest. -/
theorem usha0DigestsTheMessage : Obligations.Usha0DigestsTheMessage := by
  refine ⟨by decide, fun s sn h => ?_⟩
  obtain ⟨t, hexec, hfail, hsuccess⟩ := h.exec_next
  refine ⟨t, hexec, fun hlong => hfail .len (validate_usha0_of_long _ hlong), fun hle hwraps => ?_,
    fun hle hfits a hlow => ?_, fun hle hfits hread hquiet => ?_⟩
  · exact hfail .range ((validate_usha0_of_le _ hle).trans (regionChecks_of_not_fits _ hwraps))
  · exact hfail (.bus a) ((validate_usha0_of_le _ hle).trans (regionChecks_of_lowestUnreadable hfits hlow))
  · exact hsuccess ((validate_usha0_of_le _ hle).trans (regionChecks_of_readable hfits hread))
      (Checks.meetsSideEffects_of_data rfl rfl hquiet)

/-! ### Padding and extended message -/

/-- The zero octets reach the next multiple of 128, and past it when they are wanted at one (R150). -/
theorem usha0PadZeros_fill (p : Bool) (n : Nat) :
    (n + 8 + usha0PadZeros p n) % 128 = 0 ∧ (p = false → usha0PadZeros p n < 128) ∧
      (p = true → 1 ≤ usha0PadZeros p n ∧ usha0PadZeros p n ≤ 128) := by
  cases p with
  | false =>
    have hz : usha0PadZeros false n = (128 - (n + 8) % 128) % 128 := rfl
    exact ⟨by omega, by omega, nofun⟩
  | true =>
    have hz : usha0PadZeros true n = 128 - (n + 8) % 128 := rfl
    exact ⟨by omega, nofun, by omega⟩

theorem length_usha0Pad (p : Bool) (M : Bytes) :
    (usha0Pad p M).length = M.length + 8 + usha0PadZeros p M.length := by
  simp [usha0Pad, Nat.add_assoc]

/-- The extended message has 48 words for each chunk (R157). -/
theorem length_usha0Extended (p : Bool) (M : Bytes) :
    (usha0Extended p M).length = 48 * ((usha0Pad p M).length / 128) := by
  simp [usha0Extended, List.length_flatMap, Nat.mul_comm]

/-- Settles O52: the zero octets are those of `usha0PadZeros`. -/
theorem usha0PaddingFillsChunks : Obligations.Usha0PaddingFillsChunks := by
  intro p M
  obtain ⟨hfill, hfewest, haligned⟩ := usha0PadZeros_fill p M.length
  have hlen := length_usha0Pad p M
  exact ⟨usha0PadZeros p M.length, rfl, by omega, by omega, hfewest, haligned, length_usha0Extended p M⟩

/-! ### Word 0 of the extender

Every write of Phases B and C is to a word other than word 0, of a value that does not depend on word 0. So both phases
commute with replacing word 0. -/

theorem extAt_set_zero (E : List Word64) (w : Word64) {i : Nat} (h : i ≠ 0) : extAt (E.set 0 w) i = extAt E i := by
  simp [extAt, List.getD, List.getElem?_set_ne h.symm]

theorem set_zero_set (E : List Word64) (w v : Word64) {i : Nat} (h : i ≠ 0) :
    (E.set 0 w).set i v = (E.set i v).set 0 w := List.set_comm _ _ h.symm

theorem usha0PhaseB_set_zero (E : List Word64) (w : Word64) {j : Nat} (h : 16 ≤ j) :
    usha0PhaseB (E.set 0 w) j = (usha0PhaseB E j).set 0 w := by
  simp (disch := omega) only [usha0PhaseB, extAt_set_zero, set_zero_set]

theorem usha0PhaseC_set_zero (E : List Word64) (w : Word64) {j : Nat} (h : 20 ≤ j) :
    usha0PhaseC (E.set 0 w) j = (usha0PhaseC E j).set 0 w := by
  simp (disch := omega) only [usha0PhaseC, extAt_set_zero, set_zero_set]

theorem foldl_set_zero {f : List Word64 → Nat → List Word64} {js : List Nat} (w : Word64)
    (hf : ∀ j ∈ js, ∀ E, f (E.set 0 w) j = (f E j).set 0 w) (E : List Word64) :
    js.foldl f (E.set 0 w) = (js.foldl f E).set 0 w :=
  List.foldl_rel (r := fun E E' : List Word64 => E = E'.set 0 w) rfl fun j hj _ E hE => hE ▸ hf j hj E

/-- Chunks that agree from octet 8 on differ after Phase A in word 0 at most (R153). -/
theorem usha0PhaseA_eq_set_zero {C C' : Bytes} (h : ∀ i, 8 ≤ i → byteAt C i = byteAt C' i) :
    usha0PhaseA C = (usha0PhaseA C').set 0 (beU64 C 0) := by
  have hword (w : Nat) : beU64 C (8 * (w + 1)) = beU64 C' (8 * (w + 1)) := by
    simp (disch := omega) only [beU64, beU32, h]
  simp [usha0PhaseA, List.range_succ_eq_map (n := 15), hword]

/-- Chunks that agree from octet 8 on differ after the extender in word 0 at most, which is the first eight octets. -/
theorem usha0Extend_eq_set_zero {C C' : Bytes} (h : ∀ i, 8 ≤ i → byteAt C i = byteAt C' i) :
    usha0Extend C = (usha0Extend C').set 0 (beU64 C 0) := by
  rw [usha0Extend, usha0PhaseA_eq_set_zero h,
    foldl_set_zero _ fun j hj E => usha0PhaseB_set_zero E _ (List.mem_range'_1.1 hj).1,
    foldl_set_zero _ fun j hj E => usha0PhaseC_set_zero E _ (List.mem_range'_1.1 hj).1, ← usha0Extend]

/-- Settles O54: the extender commutes with replacing word 0. -/
theorem extenderWord0PassesThrough : Obligations.ExtenderWord0PassesThrough := by
  refine fun C C' => ⟨?_, fun h j hj => ?_⟩
  · rw [usha0Extend_eq_set_zero (C := C) fun _ _ => rfl]
    simp [extAt]
  · rw [usha0Extend_eq_set_zero h, extAt_set_zero _ _ (by omega)]

/-! ### pass_mixer -/

@[simp] theorem mixAt_mod (S : List Word64) (i : Nat) : mixAt S (i % 32) = mixAt S i := by simp [mixAt]

@[simp] theorem mixAt_mod_add (S : List Word64) (i k : Nat) : mixAt S (i % 32 + k) = mixAt S (i + k) := by simp [mixAt]

@[simp] theorem mixPut_mod (S : List Word64) (i : Nat) (v : Word64) : mixPut S (i % 32) v = mixPut S i v := by
  simp [mixPut]

@[simp] theorem mixPut_mod_add (S : List Word64) (i k : Nat) (v : Word64) :
    mixPut S (i % 32 + k) v = mixPut S (i + k) v := by simp [mixPut]

theorem usha0MixFront_mod (S : List Word64) (i : Nat) (b : Word64) :
    usha0MixFront S (i % 32) b = usha0MixFront S i b := by simp [usha0MixFront]

theorem usha0MixBranch_mod (S : List Word64) (i : Nat) : usha0MixBranch S (i % 32) = usha0MixBranch S i := by
  simp [usha0MixBranch]

theorem usha0Mix_mod (S : List Word64) (i : Nat) (b : Word64) : usha0Mix S (i % 32) b = usha0Mix S i b := by
  simp [usha0Mix, usha0MixFront_mod, usha0MixBranch_mod]

theorem mixAt_mixPut_of_ne (S : List Word64) {i j : Nat} (v : Word64) (h : i % 32 ≠ j % 32) :
    mixAt (mixPut S i v) j = mixAt S j := by
  simp [mixAt, mixPut, List.getD, List.getElem?_set_ne h]

/-- Steps 1 to 4 write the first four words of the list (R159). -/
theorem mixAt_usha0MixFront (S : List Word64) {i j : Nat} (b : Word64) (hj : j < 32) (h : j ∉ mixerWrites i) :
    mixAt (usha0MixFront S i b) j = mixAt S j := by
  simp only [mixerWrites, List.mem_append, List.mem_cons, not_or] at h
  simp (disch := omega) only [usha0MixFront, mixAt_mixPut_of_ne]

/-- Step 5 writes, in each of its branches, words of the list (R161 to R163). -/
theorem mixAt_usha0MixBranch (S : List Word64) {i j : Nat} (hj : j < 32) (h : j ∉ mixerWrites i) :
    mixAt (usha0MixBranch S i) j = mixAt S j := by
  simp only [mixerWrites, List.mem_append, List.mem_cons, not_or] at h
  unfold usha0MixBranch
  split_ifs at h ⊢
  all_goals
    simp only [List.mem_cons, not_or] at h
    simp (disch := omega) only [mixAt_mixPut_of_ne]

/-- Settles O55: every index is taken mod 32, and each step writes only words of the list. -/
theorem mixerWritesOnlyItsWords : Obligations.MixerWritesOnlyItsWords := by
  refine fun S i b hS => ⟨(usha0Mix_mod S i b).symm, (length_usha0Mix S i b).trans hS, fun j hj h => ?_⟩
  have hne : i % 32 ≠ j % 32 := by
    rw [Nat.mod_eq_of_lt hj]
    rintro rfl
    simp [mixerWrites] at h
  calc mixAt (usha0Mix S i b) j
      = mixAt (usha0MixBranch (usha0MixFront S i b) i) j := mixAt_mixPut_of_ne _ _ hne
    _ = mixAt (usha0MixFront S i b) j := mixAt_usha0MixBranch _ hj h
    _ = mixAt S j := mixAt_usha0MixFront S b hj h

end Sys2Proof.Machine


/-! PROOFS. The statements about HMAC (spec/42_hmac.md): the two key block commands, HMAC, and the key block. -/

namespace Sys2Proof.Machine

/-! ### The checks of a command that reads a key -/

/-- The lowest unreadable address is the one E_BUS carries (R246). -/
theorem busCheck_of_lowestUnreadable {c : Config} {b a : Word64} {n : Nat} (h : LowestUnreadable c b n a) :
    busCheck c (some ⟨b.toNat, n⟩) = some (.bus a) := by
  obtain ⟨hlo, hhi, hbad, hmin⟩ := h
  rw [busCheck_eq_some c ⟨b.toNat, n⟩ a.toNat hlo hhi hbad hmin, BitVec.ofNat_toNat, BitVec.setWidth_eq]

/-- A command that reads a key region only has no check of LEN or of a data region (R245). -/
theorem validate_of_key (c : Config) {k : Checks} (sn : Snapshot) (hlen : k.lenMax = none) (hdata : k.data = none) :
    validate c k sn = (digitsCheck k sn).or ((stepCheck k sn).or ((klenCheck k sn).or
      ((rangeCheck k.key).or (busCheck c k.key)))) := by
  rw [validate_eq, lenCheck_absent k sn hlen, hdata, rangeCheck_none, busCheck_none, Option.or_none, Option.none_or,
    Option.none_or]

/-- A command with no data region meets side effects only in its key region. -/
theorem Checks.meetsSideEffects_of_key {c : Config} {k : Checks} {b : Word64} {n : Nat} (hkey : k.key = some ⟨b.toNat, n⟩)
    (hdata : k.data = none) (h : NoSideEffects c b n) : k.meetsSideEffects c = false := by
  simp [Checks.meetsSideEffects, hkey, hdata, lowestIn_of_noSideEffects h]

/-! ### HMAC_IPAD and HMAC_OPAD -/

/-- A command nobody races whose checks are those of its key ends with the first that fails; with none, on memory without
read side effects, it commits its result on the key octets. -/
theorem Unraced.exec_of_keyChecks {i : Instr} {s : State} {sn : Snapshot} (h : Unraced i s sn)
    (hchecks : checksOf i sn = { klen := true, key := some sn.keyRegion }) :
    ∃ t, exec i s = .next t ∧
      (2 ^ 61 - 1 < sn.klen.toNat → FailedWith s t .eLen s.faddr) ∧
      (sn.klen.toNat ≤ 2 ^ 61 - 1 → ¬ Fits sn.key sn.klen.toNat → FailedWith s t .eRange s.faddr) ∧
      (sn.klen.toNat ≤ 2 ^ 61 - 1 → Fits sn.key sn.klen.toNat →
        ∀ a, LowestUnreadable s.config sn.key sn.klen.toNat a → FailedWith s t .eBus a) ∧
      (sn.klen.toNat ≤ 2 ^ 61 - 1 → Fits sn.key sn.klen.toNat → Readable s.config sn.key sn.klen.toNat →
        NoSideEffects s.config sn.key sn.klen.toNat →
          t = (finished s t).commit (resultOf i s.config sn (s.mem.bytes sn.key.toNat sn.klen.toNat) [])) := by
  obtain ⟨t, hexec, hfail, hsuccess⟩ := h.exec_next
  rw [hchecks, validate_of_key s.config sn rfl rfl, digitsCheck_absent _ sn rfl, stepCheck_absent _ sn rfl,
    Option.none_or, Option.none_or] at hfail hsuccess
  refine ⟨t, hexec, fun hlong => hfail .len (by rw [klenCheck_fail _ sn rfl hlong, Option.some_or]),
    fun hle hwraps => hfail .range ?_, fun hle hfits a hlow => hfail (.bus a) ?_, fun hle hfits hread hquiet =>
      hsuccess ?_ (Checks.meetsSideEffects_of_key rfl rfl hquiet)⟩ <;>
    rw [klenCheck_pass _ sn hle, Option.none_or]
  · exact regionChecks_of_not_fits s.config hwraps
  · exact regionChecks_of_lowestUnreadable hfits hlow
  · exact regionChecks_of_readable hfits hread

/-- Settles O12: HMAC_IPAD has the checks of its key only, and commits the key block under the inner pad. -/
theorem hmacIpadGivesTheInnerKeyBlock : Obligations.HmacIpadGivesTheInnerKeyBlock :=
  ⟨by decide, fun _ _ h => h.exec_of_keyChecks rfl⟩

/-- Settles O13: HMAC_OPAD has the checks of its key only, and commits the key block under the outer pad. -/
theorem hmacOpadGivesTheOuterKeyBlock : Obligations.HmacOpadGivesTheOuterKeyBlock :=
  ⟨by decide, fun _ _ h => h.exec_of_keyChecks rfl⟩

/-! ### HMAC -/

/-- A length of key or data past its limit comes before every other check (R194, R197). -/
theorem validate_hmac_of_long (c : Config) {sn : Snapshot}
    (h : 2 ^ 61 - 1 < sn.klen.toNat ∨ 2 ^ 61 - 65 < sn.len.toNat) : validate c (checksOf .hmac sn) sn = some .len := by
  rw [validate_eq, digitsCheck_absent _ sn rfl, stepCheck_absent _ sn rfl, Option.none_or, Option.none_or]
  rcases Nat.lt_or_ge (2 ^ 61 - 1) sn.klen.toNat with hklen | hklen
  · rw [klenCheck_fail _ sn rfl hklen, Option.some_or]
  · rw [klenCheck_pass _ sn hklen, lenCheck_fail _ sn hmacMaxLen rfl (h.resolve_left (Nat.not_lt.2 hklen)),
      Option.none_or, Option.some_or]

/-- Within the limits the checks left are those of the two regions: both ranges, then both readabilities (R197). -/
theorem validate_hmac_of_le (c : Config) {sn : Snapshot} (hklen : sn.klen.toNat ≤ 2 ^ 61 - 1)
    (hlen : sn.len.toNat ≤ 2 ^ 61 - 65) :
    validate c (checksOf .hmac sn) sn =
      (rangeCheck (some ⟨sn.key.toNat, sn.klen.toNat⟩)).or ((rangeCheck (some ⟨sn.src.toNat, sn.len.toNat⟩)).or
        ((busCheck c (some ⟨sn.key.toNat, sn.klen.toNat⟩)).or (busCheck c (some ⟨sn.src.toNat, sn.len.toNat⟩)))) := by
  rw [validate_eq, digitsCheck_absent _ sn rfl, stepCheck_absent _ sn rfl, klenCheck_pass _ sn hklen,
    lenCheck_pass _ sn hmacMaxLen rfl hlen]
  rfl

theorem validate_hmac_of_not_fits (c : Config) {sn : Snapshot} (hklen : sn.klen.toNat ≤ 2 ^ 61 - 1)
    (hlen : sn.len.toNat ≤ 2 ^ 61 - 65) (h : ¬ Fits sn.key sn.klen.toNat ∨ ¬ Fits sn.src sn.len.toNat) :
    validate c (checksOf .hmac sn) sn = some .range := by
  rw [validate_hmac_of_le c hklen hlen]
  by_cases hkey : Fits sn.key sn.klen.toNat
  · have hdata : ¬ Fits sn.src sn.len.toNat := h.resolve_left (not_not_intro hkey)
    rw [(rangeCheck_eq_none _ _).2 hkey, rangeCheck_eq_some _ _ (Nat.lt_of_not_le hdata), Option.none_or, Option.some_or]
  · rw [rangeCheck_eq_some _ _ (Nat.lt_of_not_le hkey), Option.some_or]

/-- Regions that do not wrap leave the two readability checks, the key's first (R197). -/
theorem validate_hmac_of_fits (c : Config) {sn : Snapshot} (hklen : sn.klen.toNat ≤ 2 ^ 61 - 1)
    (hlen : sn.len.toNat ≤ 2 ^ 61 - 65) (hkey : Fits sn.key sn.klen.toNat) (hdata : Fits sn.src sn.len.toNat) :
    validate c (checksOf .hmac sn) sn =
      (busCheck c (some ⟨sn.key.toNat, sn.klen.toNat⟩)).or (busCheck c (some ⟨sn.src.toNat, sn.len.toNat⟩)) := by
  rw [validate_hmac_of_le c hklen hlen, (rangeCheck_eq_none _ _).2 hkey, (rangeCheck_eq_none _ _).2 hdata,
    Option.none_or, Option.none_or]

/-- HMAC meets side effects in neither region when there are none (R78). -/
theorem meetsSideEffects_hmac {c : Config} {sn : Snapshot} (hkey : NoSideEffects c sn.key sn.klen.toNat)
    (hdata : NoSideEffects c sn.src sn.len.toNat) : (checksOf .hmac sn).meetsSideEffects c = false := by
  simp [Checks.meetsSideEffects, checksOf, Snapshot.keyRegion, Snapshot.dataRegion, lowestIn_of_noSideEffects hkey,
    lowestIn_of_noSideEffects hdata]

/-- Settles O14: each clause passes the checks before its own, and the success commits the packed HMAC. -/
theorem hmacAuthenticatesTheData : Obligations.HmacAuthenticatesTheData := by
  refine ⟨by decide, fun s sn h => ?_⟩
  obtain ⟨t, hexec, hfail, hsuccess⟩ := h.exec_next
  refine ⟨t, hexec, fun hlong => hfail .len (validate_hmac_of_long _ hlong), fun hklen hlen =>
    ⟨fun hwraps => hfail .range (validate_hmac_of_not_fits _ hklen hlen hwraps), fun hkey hdata => ?_⟩⟩
  rw [validate_hmac_of_fits s.config hklen hlen hkey hdata] at hfail hsuccess
  refine ⟨fun a hlow => hfail (.bus a) ?_, fun hkeyread => ?_⟩
  · rw [busCheck_of_lowestUnreadable hlow, Option.some_or]
  · rw [(busCheck_eq_none s.config ⟨sn.key.toNat, sn.klen.toNat⟩).2 hkeyread, Option.none_or] at hfail hsuccess
    exact ⟨fun a hlow => hfail (.bus a) (busCheck_of_lowestUnreadable hlow), fun hdataread hkeyquiet hdataquiet =>
      hsuccess ((busCheck_eq_none s.config ⟨sn.src.toNat, sn.len.toNat⟩).2 hdataread)
        (meetsSideEffects_hmac hkeyquiet hdataquiet)⟩

/-! ### The key block -/

/-- A key within a block is filled up with zero octets (R190; a key of 64 octets with none). -/
theorem hmacKeynorm_of_length_le {K : Bytes} (h : K.length ≤ 64) : hmacKeynorm K = K ++ zeros (64 - K.length) := by
  rw [hmacKeynorm, if_neg (Nat.not_lt.2 h)]
  split
  case isTrue hfull => rw [hfull, Nat.sub_self, zeros_zero, List.append_nil]
  case isFalse => rfl

theorem length_hmacKeynorm (K : Bytes) : (hmacKeynorm K).length = 64 := by
  rcases Nat.lt_or_ge 64 K.length with hlong | hle
  · rw [hmacKeynorm, if_pos hlong, List.length_append, length_sha1, length_zeros]
  · rw [hmacKeynorm_of_length_le hle, List.length_append, length_zeros]
    omega

theorem zeros_append_zeros (m n : Nat) : zeros m ++ zeros n = zeros (m + n) := List.replicate_append_replicate

/-- Zero octets at the end of a key within a block are the ones the block is filled with anyway (R190). -/
theorem hmacKeynorm_append_zeros {K : Bytes} {n : Nat} (h : K.length + n ≤ 64) :
    hmacKeynorm (K ++ zeros n) = hmacKeynorm K := by
  have hlen : (K ++ zeros n).length = K.length + n := by rw [List.length_append, length_zeros]
  have hfill : n + (64 - (K.length + n)) = 64 - K.length := by omega
  rw [hmacKeynorm_of_length_le (hlen.trans_le h), hlen, List.append_assoc, zeros_append_zeros, hfill,
    hmacKeynorm_of_length_le (Nat.le_of_add_right_le h)]

/-- HMAC reads its key through the key block only (R193). -/
theorem hmac_congr {K K' : Bytes} (h : hmacKeynorm K = hmacKeynorm K') (D : Bytes) : hmac K D = hmac K' D := by
  rw [hmac, h, hmac]

@[simp] theorem length_usha0 (p : Bool) (M : Bytes) : (usha0 p M).length = 32 := rfl

/-- Settles O56: the two keys have the same key block. -/
theorem trailingZerosDoNotChangeTheKey : Obligations.TrailingZerosDoNotChangeTheKey :=
  fun K D _ p => ⟨length_hmacKeynorm K, fun h => hmac_congr (hmacKeynorm_append_zeros h) D, length_sha1 _, length_sha1 D,
    length_usha0 p D⟩

end Sys2Proof.Machine


/-! PROOFS. The statements about the one-time passwords (spec/43_otp.md): the dynamic truncation and the decimal string, then
the four commands. -/

namespace Sys2Proof.Machine

/-! ### Dynamic truncation -/

theorem toNat_append_octet {n : Nat} (x : BitVec n) (b : Byte) : (x ++ b).toNat = x.toNat * 2 ^ 8 + b.toNat := by
  rw [BitVec.toNat_append, ← Nat.shiftLeft_add_eq_or_of_lt b.isLt, Nat.shiftLeft_eq]

/-- The offset is the low four bits of the last octet (R212). -/
theorem otpOffset_eq (H : Bytes) : otpOffset H = (byteAt H 19).toNat % 16 :=
  (BitVec.toNat_and _ _).trans (Nat.and_two_pow_sub_one_eq_mod _ 4)

/-- The truncation as a number: four octets, big-endian, the top bit cleared (R213). -/
theorem toNat_otpTrunc (H : Bytes) :
    (otpTrunc H).toNat =
      (byteAt H (otpOffset H)).toNat % 128 * 2 ^ 24 + (byteAt H (otpOffset H + 1)).toNat * 2 ^ 16
        + (byteAt H (otpOffset H + 2)).toNat * 2 ^ 8 + (byteAt H (otpOffset H + 3)).toNat := by
  have htop (b : Byte) : (b &&& 0x7F).toNat = b.toNat % 128 :=
    (BitVec.toNat_and _ _).trans (Nat.and_two_pow_sub_one_eq_mod _ 7)
  rw [otpTrunc, toNat_append_octet, toNat_append_octet, toNat_append_octet, htop]
  omega

theorem toNat_otpTrunc_lt (H : Bytes) : (otpTrunc H).toNat < 2 ^ 31 := by
  have hoctet (i : Nat) : (byteAt H i).toNat < 2 ^ 8 := (byteAt H i).isLt
  have h1 := hoctet (otpOffset H + 1)
  have h2 := hoctet (otpOffset H + 2)
  have h3 := hoctet (otpOffset H + 3)
  rw [toNat_otpTrunc]
  omega

/-- Settles O57: the offset is at most 15, and the value is below 2^31, hence below 10^10. -/
theorem truncationIsA31BitValue : Obligations.TruncationIsA31BitValue := by
  intro H
  have hlt := toNat_otpTrunc_lt H
  have hoffset := otpOffset_eq H
  exact ⟨otpOffset H, hoffset, by omega, toNat_otpTrunc H, hlt, Nat.mod_eq_of_lt (by omega)⟩

/-! ### The decimal string -/

/-- The number a string of ASCII digits spells, the most significant digit first. -/
def decimalValue (z : Bytes) : Nat := z.foldl (fun acc c => 10 * acc + (c.toNat - 0x30)) 0

@[simp] theorem length_otpDecimal (v d : Nat) : (otpDecimal v d).length = d := by simp [otpDecimal]

/-- The code of a decimal digit fits in an octet (R215). -/
theorem toNat_digit (n : Nat) : (BitVec.ofNat 8 (0x30 + n % 10)).toNat = 0x30 + n % 10 := by
  rw [BitVec.toNat_ofNat]
  omega

theorem otpDecimal_digits (v d : Nat) : ∀ c ∈ otpDecimal v d, 0x30 ≤ c.toNat ∧ c.toNat ≤ 0x39 := by
  intro c hc
  obtain ⟨k, -, rfl⟩ := List.mem_map.1 hc
  rw [toNat_digit]
  omega

/-- The last of `d + 1` digits is that of the units; the others are the `d` digits of the tens. -/
theorem otpDecimal_succ (v d : Nat) :
    otpDecimal v (d + 1) = otpDecimal (v / 10) d ++ [BitVec.ofNat 8 (0x30 + v % 10)] := by
  have htens (k : Nat) (hk : k < d) : v / 10 ^ (d - k) = v / 10 / 10 ^ (d - 1 - k) := by
    have hexp : d - k = d - 1 - k + 1 := by omega
    rw [hexp, Nat.pow_succ', Nat.div_div_eq_div_mul]
  have hinit : ∀ k ∈ List.range d, BitVec.ofNat 8 (0x30 + v / 10 ^ (d - k) % 10) =
      BitVec.ofNat 8 (0x30 + v / 10 / 10 ^ (d - 1 - k) % 10) :=
    fun k hk => by rw [htens k (List.mem_range.1 hk)]
  simp [otpDecimal, List.range_succ, List.map_congr_left hinit]

/-- The digits spell the value modulo 10^d, by induction on the number of digits. -/
theorem decimalValue_otpDecimal (v d : Nat) : decimalValue (otpDecimal v d) = v % 10 ^ d := by
  induction d generalizing v with
  | zero => simp [otpDecimal, decimalValue, Nat.mod_one]
  | succ d ih =>
    calc decimalValue (otpDecimal v (d + 1))
        = 10 * decimalValue (otpDecimal (v / 10) d) + v % 10 := by
          rw [otpDecimal_succ, decimalValue, List.foldl_append, List.foldl_cons, List.foldl_nil, toNat_digit,
            Nat.add_sub_cancel_left, decimalValue]
      _ = v % 10 + 10 * (v / 10 % 10 ^ d) := by rw [ih, Nat.add_comm]
      _ = v % 10 ^ (d + 1) := by rw [Nat.pow_succ', Nat.mod_mul]

/-- Settles O58: the digits spell the value modulo 10^d, whatever the value. -/
theorem decimalStringSpellsTheValue : Obligations.DecimalStringSpellsTheValue :=
  ⟨fun v d hv => ⟨length_otpDecimal v d, otpDecimal_digits v d,
      (decimalValue_otpDecimal v d).trans (Nat.mod_eq_of_lt hv)⟩,
    fun _ _ d => ⟨length_otpDecimal _ d,
      (decimalValue_otpDecimal _ d).trans_lt (Nat.mod_lt _ (Nat.pow_pos (by decide)))⟩⟩

/-! ### What the commands commit -/

/-- The quotient is exact: it fits in the 64 bits of OTP_CNT (R211). -/
theorem toNat_otpStep (t x : Word64) : (otpStep t x).toNat = t.toNat / x.toNat := by
  rw [otpStep, BitVec.toNat_ofNat]
  exact Nat.mod_eq_of_lt (Nat.lt_of_le_of_lt (Nat.div_le_self _ _) t.isLt)

/-- OTP_VAL holds the whole remainder (R214, R216). -/
theorem toNat_otpWriteBack_val (bin : Word32) (d : Nat) : (otpWriteBack bin d).val.toNat = bin.toNat % 10 ^ d :=
  (BitVec.toNat_ofNat _ _).trans (Nat.mod_eq_of_lt (Nat.lt_of_le_of_lt (Nat.mod_le _ _) bin.isLt))

/-- The commit of HOTP and TOTP, register by register (R221, R222). -/
theorem eq_of_otpCommit {s t : State} {K : Bytes} {C : Word64} {d : Nat}
    (h : t = (finished s t).commit (otpCommit K C d)) :
    t = { finished s t with
      otpCnt := C
      res := pack (hmac K (be8 C))
      otpBin := otpTrunc (hmac K (be8 C))
      otpVal := t.otpVal
      otpStr := packstr (hotp K C d) } ∧
    t.otpCnt = C ∧ t.otpVal.toNat = t.otpBin.toNat % 10 ^ d := by
  have hcnt : t.otpCnt = C := congrArg State.otpCnt h
  have hbin : t.otpBin = otpTrunc (hmac K (be8 C)) := congrArg State.otpBin h
  have hval : t.otpVal = (otpWriteBack (otpTrunc (hmac K (be8 C))) d).val := congrArg State.otpVal h
  refine ⟨?_, hcnt, ?_⟩
  · rw [hval]
    exact h
  · rw [hval, hbin, toNat_otpWriteBack_val]

/-! ### TOTP_COUNTER and OTP_TRUNC -/

/-- TOTP_COUNTER has no operand region, so nothing races it. -/
theorem unraced_totpCounter {s : State} {sn : Snapshot} (h : s.engine = .busy sn false) : Unraced .totpCounter s sn :=
  ⟨h, writeAhead_of_no_region _ _ rfl rfl _ _⟩

/-- Settles O15: TOTP_COUNTER has the check of STEP only, and commits the quotient and its octets. -/
theorem totpCounterDividesTimeByStep : Obligations.TotpCounterDividesTimeByStep := by
  refine ⟨by decide, fun s sn h => ?_⟩
  obtain ⟨t, hexec, hfail, hsuccess⟩ := (unraced_totpCounter h).exec_next
  have hvalidate : validate s.config (checksOf .totpCounter sn) sn = stepCheck (checksOf .totpCounter sn) sn := by
    rw [validate_of_key s.config sn rfl rfl, digitsCheck_absent _ sn rfl, klenCheck_absent _ sn rfl]
    exact Option.or_none
  rw [hvalidate] at hfail hsuccess
  refine ⟨t, hexec, fun hzero => hfail .step (stepCheck_fail _ sn rfl hzero), fun hne => ?_⟩
  have ht := hsuccess (stepCheck_pass _ sn hne) rfl
  have hcnt : t.otpCnt = otpStep sn.time sn.step := congrArg State.otpCnt ht
  rw [hcnt]
  exact ⟨ht, toNat_otpStep sn.time sn.step⟩

/-- DIGITS out of range comes before every other check (R244). -/
theorem validate_of_bad_digits (c : Config) {k : Checks} {sn : Snapshot} (hk : k.digits = true)
    (h : sn.digits.toNat < 1 ∨ 10 < sn.digits.toNat) : validate c k sn = some .digits := by
  rw [validate_eq, digitsCheck_fail k sn hk h, Option.some_or]

/-- With DIGITS in range the checks left of OTP_TRUNC are those of its 20 octets (R220). -/
theorem validate_otpTrunc (c : Config) {sn : Snapshot} (hlo : 1 ≤ sn.digits.toNat) (hhi : sn.digits.toNat ≤ 10) :
    validate c (checksOf .otpTrunc sn) sn =
      (rangeCheck (some ⟨sn.src.toNat, 20⟩)).or (busCheck c (some ⟨sn.src.toNat, 20⟩)) := by
  rw [validate_eq, digitsCheck_pass _ sn hlo hhi, stepCheck_absent _ sn rfl, klenCheck_absent _ sn rfl,
    lenCheck_absent _ sn rfl]
  rfl

/-- Settles O16: after DIGITS come the checks of the 20 octets, and the success commits their truncation. -/
theorem otpTruncReducesTheBytes : Obligations.OtpTruncReducesTheBytes := by
  refine ⟨by decide, fun s sn h => ?_⟩
  obtain ⟨t, hexec, hfail, hsuccess⟩ := h.exec_next
  refine ⟨t, hexec, fun hbad => hfail .digits (validate_of_bad_digits _ rfl hbad), fun hlo hhi => ?_⟩
  rw [validate_otpTrunc s.config hlo hhi] at hfail hsuccess
  refine ⟨fun hwraps => hfail .range (regionChecks_of_not_fits s.config hwraps), fun hfits =>
    ⟨fun a hlow => hfail (.bus a) (regionChecks_of_lowestUnreadable hfits hlow), fun hread hquiet => ?_⟩⟩
  have ht := hsuccess (regionChecks_of_readable hfits hread) (Checks.meetsSideEffects_of_data rfl rfl hquiet)
  have hval : t.otpVal = (otpWriteBack (otpTrunc (s.mem.bytes sn.src.toNat 20)) sn.digits.toNat).val :=
    congrArg State.otpVal ht
  have hnumber : t.otpVal.toNat = (otpTrunc (s.mem.bytes sn.src.toNat 20)).toNat % 10 ^ sn.digits.toNat := by
    rw [hval, toNat_otpWriteBack_val]
  refine ⟨?_, hnumber⟩
  rw [hnumber, hval]
  exact ht

/-! ### HOTP and TOTP -/

theorem stepCheck_eq_none_of_not (k : Checks) (sn : Snapshot) (h : ¬ (k.step = true ∧ sn.step = 0)) :
    stepCheck k sn = none := if_neg h

/-- HOTP and TOTP, for the moving factor `C`: DIGITS, then STEP where the command has that check, then KLEN, then the key
region; with no error, on memory without read side effects, the commit of `C` (R221, R222). -/
theorem Unraced.exec_of_otpChecks {i : Instr} {s : State} {sn : Snapshot} {stepped : Bool} {C : Word64}
    (h : Unraced i s sn)
    (hchecks : checksOf i sn = { digits := true, step := stepped, klen := true, key := some sn.keyRegion })
    (hresult : ∀ K D, resultOf i s.config sn K D = otpCommit K C sn.digits.toNat) :
    ∃ t, exec i s = .next t ∧
      (sn.digits.toNat < 1 ∨ 10 < sn.digits.toNat → FailedWith s t .eDigits s.faddr) ∧
      (1 ≤ sn.digits.toNat → sn.digits.toNat ≤ 10 →
        (stepped = true ∧ sn.step = 0 → FailedWith s t .eStep s.faddr) ∧
        (¬ (stepped = true ∧ sn.step = 0) →
          (2 ^ 61 - 1 < sn.klen.toNat → FailedWith s t .eLen s.faddr) ∧
          (sn.klen.toNat ≤ 2 ^ 61 - 1 →
            (¬ Fits sn.key sn.klen.toNat → FailedWith s t .eRange s.faddr) ∧
            (Fits sn.key sn.klen.toNat →
              (∀ a, LowestUnreadable s.config sn.key sn.klen.toNat a → FailedWith s t .eBus a) ∧
              (Readable s.config sn.key sn.klen.toNat → NoSideEffects s.config sn.key sn.klen.toNat →
                t = (finished s t).commit
                  (otpCommit (s.mem.bytes sn.key.toNat sn.klen.toNat) C sn.digits.toNat)))))) := by
  obtain ⟨t, hexec, hfail, hsuccess⟩ := h.exec_next
  rw [hresult] at hsuccess
  rw [hchecks] at hfail hsuccess
  refine ⟨t, hexec, fun hbad => hfail .digits (validate_of_bad_digits _ rfl hbad), fun hlo hhi => ?_⟩
  rw [validate_of_key s.config sn rfl rfl, digitsCheck_pass _ sn hlo hhi, Option.none_or] at hfail hsuccess
  refine ⟨fun ⟨hs, hzero⟩ => hfail .step (by rw [stepCheck_fail _ sn hs hzero, Option.some_or]), fun hstep => ?_⟩
  rw [stepCheck_eq_none_of_not _ sn hstep, Option.none_or] at hfail hsuccess
  refine ⟨fun hlong => hfail .len (by rw [klenCheck_fail _ sn rfl hlong, Option.some_or]), fun hle => ?_⟩
  rw [klenCheck_pass _ sn hle, Option.none_or] at hfail hsuccess
  exact ⟨fun hwraps => hfail .range (regionChecks_of_not_fits s.config hwraps), fun hfits =>
    ⟨fun a hlow => hfail (.bus a) (regionChecks_of_lowestUnreadable hfits hlow), fun hread hquiet =>
      hsuccess (regionChecks_of_readable hfits hread) (Checks.meetsSideEffects_of_key rfl rfl hquiet)⟩⟩

/-- Settles O17: HOTP has no check of STEP, and its moving factor is CTR. -/
theorem hotpGivesTheCounterPassword : Obligations.HotpGivesTheCounterPassword := by
  refine ⟨by decide, fun s sn h => ?_⟩
  obtain ⟨t, hexec, hdigits, hgo⟩ := h.exec_of_otpChecks (stepped := false) rfl fun _ _ => rfl
  refine ⟨t, hexec, hdigits, fun hlo hhi => ?_⟩
  obtain ⟨-, hkey⟩ := hgo hlo hhi
  refine (hkey (by simp)).imp_right fun hregion hle => (hregion hle).imp_right fun hbus hfits =>
    (hbus hfits).imp_right fun hsuccess hread hquiet => ?_
  obtain ⟨ht, -, hval⟩ := eq_of_otpCommit (hsuccess hread hquiet)
  exact ⟨ht, hval⟩

/-- Settles O18: TOTP has the check of STEP, and its moving factor is the quotient. -/
theorem totpGivesTheTimePassword : Obligations.TotpGivesTheTimePassword := by
  refine ⟨by decide, fun s sn h => ?_⟩
  obtain ⟨t, hexec, hdigits, hgo⟩ := h.exec_of_otpChecks (stepped := true) rfl fun _ _ => rfl
  refine ⟨t, hexec, hdigits, fun hlo hhi => ?_⟩
  obtain ⟨hstep, hkey⟩ := hgo hlo hhi
  refine ⟨fun hzero => hstep ⟨rfl, hzero⟩, fun hne => ?_⟩
  refine (hkey fun hbad => hne hbad.2).imp_right fun hregion hle => (hregion hle).imp_right fun hbus hfits =>
    (hbus hfits).imp_right fun hsuccess hread hquiet => ?_
  obtain ⟨ht, hcnt, hval⟩ := eq_of_otpCommit (hsuccess hread hquiet)
  rw [hcnt]
  exact ⟨ht, toNat_otpStep sn.time sn.step, hval⟩

/-! ### TOTP as HOTP -/

/-- Two commands nobody races, with equal regions, validation and result, complete alike but for the record, which names the
command (R242). -/
theorem State.completeWith_eq_withUnobserved {i j : Instr} {a b : Snapshot} {f g : Snapshot → Bytes → Bytes → Commit}
    (s : State) (hrace : s.racesAhead (checksOf i a) = false) (hrace' : s.racesAhead (checksOf j b) = false)
    (hkey : (checksOf i a).key = (checksOf j b).key) (hdata : (checksOf i a).data = (checksOf j b).data)
    (hv : validate s.config (checksOf i a) a = validate s.config (checksOf j b) b) (hf : f a = g b) :
    ∃ u, s.completeWith i a false f = { s.completeWith j b false g with unobserved := u } := by
  have hquiet : (checksOf i a).meetsSideEffects s.config = (checksOf j b).meetsSideEffects s.config := by
    rw [Checks.meetsSideEffects, hkey, hdata, ← Checks.meetsSideEffects]
  simp only [State.completeWith, State.outcome, State.results, hrace, hrace', hkey, hdata, hv, hf, hquiet]
  cases validate s.config (checksOf j b) b with
  | some e => exact ⟨_, rfl⟩
  | none => exact ⟨_, rfl⟩

/-- STEP not 0 leaves TOTP the checks of HOTP. -/
theorem validate_totp_of_step (c : Config) {sn : Snapshot} (h : sn.step ≠ 0) (ctr : Word64) :
    validate c (checksOf .totp sn) sn = validate c (checksOf .hotp { sn with ctr := ctr }) { sn with ctr := ctr } := by
  rw [validate_eq, validate_eq, stepCheck_pass _ sn h, stepCheck_absent (checksOf .hotp _) _ rfl]
  rfl

/-- Settles O27: with STEP not 0 the checks, the region and the result of the two commands are the same. -/
theorem totpIsHotpOfTheTimeStep : Obligations.TotpIsHotpOfTheTimeStep := by
  intro s sn ctr hne hctr hrace
  have hstep : otpStep sn.time sn.step = ctr :=
    BitVec.eq_of_toNat_eq ((toNat_otpStep sn.time sn.step).trans hctr.symm)
  have hrace' : s.racesAhead (checksOf .hotp { sn with ctr := ctr }) = false :=
    (writeAhead_congr _ (checksOf .hotp { sn with ctr := ctr }) (checksOf .totp sn) (fun _ => rfl) _ _).trans hrace
  obtain ⟨u, hu⟩ := s.completeWith_eq_withUnobserved (f := resultOf .totp s.config) (g := resultOf .hotp s.config)
    hrace hrace' rfl rfl (validate_totp_of_step s.config hne ctr) (by simp only [resultOf, hstep])
  refine ⟨_, u, exec_of_busy .hotp _ { sn with ctr := ctr } false rfl, ?_⟩
  rw [exec_of_busy .totp _ sn false rfl, State.completeWith_withEngine, State.completeWith_withEngine]
  exact congrArg _ hu

end Sys2Proof.Machine


/-! PROOFS. The statements about the command lifecycle and the interrupt output (spec/60_exceptions.md): acceptance, the engine's
turn, a failed completion, and the events that move IRQ. -/

namespace Sys2Proof.Machine

/-! ### Acceptance and the dropped write -/

theorem State.busy_of_idle {s : State} (h : s.engine = .idle) : s.busy = false := by simp [State.busy, h]

theorem State.busy_of_inFlight {s : State} {sn : Snapshot} {racy : Bool} (h : s.engine = .busy sn racy) : s.busy = true := by
  simp [State.busy, h]

/-- A CMD write that finds the engine idle is an acceptance (R240). -/
theorem State.writeReg_cmd_of_idle {s : State} (h : s.busy = false) (v : Word32) : s.writeReg .cmd v = s.accept v := by
  simp [State.writeReg, h]

/-- A CMD write that finds the engine busy is dropped (R241). -/
theorem State.writeReg_cmd_of_busy {s : State} (h : s.busy = true) (v : Word32) : s.writeReg .cmd v = s.dropWrite := by
  simp [State.writeReg, h]

/-- Settles O4: the write is `State.accept`, whose snapshot joins the operand registers' halves. -/
theorem idleCmdWriteIsAccepted : Obligations.IdleCmdWriteIsAccepted := by
  unfold Obligations.IdleCmdWriteIsAccepted
  intro s v rest hi he
  rw [step_writeEvent s .cmd v rest hi, State.writeReg_cmd_of_idle (State.busy_of_idle he)]
  rfl

/-- Settles O5: the write is `State.dropWrite`. -/
theorem busyCmdWriteIsDropped : Obligations.BusyCmdWriteIsDropped := by
  unfold Obligations.BusyCmdWriteIsDropped
  intro s v rest sn racy hi he
  rw [step_writeEvent s .cmd v rest hi, State.writeReg_cmd_of_busy (State.busy_of_inFlight he)]
  rfl

/-! ### The engine's turn -/

/-- At the engine's turn, scheduled or with nothing pending, a step is the engine's own on the rest of the schedule. -/
theorem step_of_engineTurn (s : State) (h : s.inputs = [] ∨ ∃ rest, s.inputs = .complete :: rest) :
    step s = ({ s with inputs := s.inputs.tail } : State).complete := by
  rcases h with hnil | ⟨rest, hcons⟩
  · have hsame : ({ s with inputs := s.inputs.tail } : State) = s := by rw [hnil, List.tail_nil, ← hnil]
    rw [hsame, step_nil s hnil]
  · rw [step_cons s .complete rest hcons, hcons]
    rfl

/-- Settles O3: the engine's own step runs the command its word decodes to. -/
theorem stepRunsTheCommandInFlight : Obligations.StepRunsTheCommandInFlight := by
  intro s sn racy i rest he hd
  refine ⟨fun hi => ?_, fun hi => ?_⟩
  · rw [step_of_engineTurn s (.inr ⟨rest, hi⟩), hi]
    exact State.complete_of_command _ sn racy i he hd
  · rw [step_nil s hi, s.complete_of_command sn racy i he hd]

/-- Settles O35: with nothing pending a step is the engine's own, and an idle engine has none. -/
theorem idleCoreKeepsEveryRegister : Obligations.IdleCoreKeepsEveryRegister := fun s he hi => by
  rw [step_nil s hi, s.complete_of_idle he]

/-- Settles O28: the engine's own step, every event, and every command as one `perform`, answer a next state. -/
theorem everyStepGoesOn : Obligations.EveryStepGoesOn := by
  refine ⟨fun s => ?_, fun i s => ⟨_, exec_eq_perform i s⟩⟩
  cases hi : s.inputs with
  | nil => exact step_nil s hi ▸ s.complete_next.imp fun _ h => h.1
  | cons e rest => exact step_next s e rest hi

/-! ### A completion that fails -/

/-- A completion with an error changes STATUS, and FADDR on E_BUS (R247). -/
theorem State.failedWith_fail (s : State) (e : CmdError) (i : Option Instr) (k : Checks) (raced : Bool) :
    FailedWith s ((s.fail e).noted i k raced) e.code (if e.code = .eBus then (s.fail e).faddr else s.faddr) := by
  cases e with
  | bus a => rfl
  | _ => rfl

/-- The engine's own step, taken while busy, that leaves ERR = 1 was a failure: a success clears ERR (R242, R248). -/
theorem State.failedWith_of_complete {s t : State} (hb : s.busy = true) (h : s.complete = .next t)
    (herr : t.status.err = true) :
    FailedWith s t t.status.errcode (if t.status.errcode = .eBus then t.faddr else s.faddr) := by
  rcases s.complete_cases with ⟨he, -⟩ | ⟨_, _, -, -, hc⟩ | ⟨_, _, _, e, -, -, hc⟩ | ⟨_, _, _, -, -, hc⟩
  · exact absurd ((State.busy_of_idle he).symm.trans hb) Bool.false_ne_true
  · cases hc.symm.trans h
    exact s.failedWith_fail .illegal none {} false
  · cases hc.symm.trans h
    exact s.failedWith_fail e _ _ _
  · cases hc.symm.trans h
    exact absurd herr Bool.false_ne_true

/-- Settles O19: the step is the engine's own, of a command, raced or not, or of an illegal word. -/
theorem failedCommandCommitsNothing : Obligations.FailedCommandCommitsNothing := by
  unfold Obligations.FailedCommandCommitsNothing
  intro s t sn racy he hturn hstep herr
  exact State.failedWith_of_complete (State.busy_of_inFlight he) ((step_of_engineTurn s hturn).symm.trans hstep) herr

/-! ### The interrupt output -/

theorem State.irq_iff (s : State) : s.irq = true ↔ s.ie = true ∧ s.status.done = true := Bool.and_eq_true_iff

theorem State.irq_of_done {s : State} (h : s.status.done = true) : s.irq = s.ie := by simp [State.irq, h]

theorem State.irq_of_not_done {s : State} (h : s.status.done = false) : s.irq = false := by simp [State.irq, h]

/-- A completion, scheduled or with nothing pending, sets DONE and leaves IE, so IRQ is IE (R242, R249). -/
theorem irq_of_completion {s t : State} (hb : s.busy = true) (hturn : s.inputs = [] ∨ ∃ rest, s.inputs = .complete :: rest)
    (h : step s = .next t) : t.irq = s.ie := by
  have hw : t.watch = ⟨false, true, s.ie⟩ :=
    (State.complete_watch _ t ((step_of_engineTurn s hturn).symm.trans h)).trans (if_pos hb)
  have hdone : t.status.done = true := congrArg Watch.done hw
  exact (State.irq_of_done hdone).trans (congrArg Watch.ie hw)

/-- Settles O48: what each event leaves of IE and DONE. -/
theorem interruptFollowsEnableAndDone : Obligations.InterruptFollowsEnableAndDone := by
  unfold Obligations.InterruptFollowsEnableAndDone
  refine ⟨State.irq_iff, fun s t hb hi h => irq_of_completion hb (.inl hi) h, fun s t v rest h => ?_⟩
  refine ⟨fun hi => ?_, fun hi hv => ?_, fun hi hb => ?_, fun hi => ?_⟩
  · cases (step_writeEvent s .ctrl v rest hi).symm.trans h
    rfl
  · cases (step_writeEvent s .status v rest hi).symm.trans h
    exact State.irq_of_not_done (by simp [State.writeReg, Status.clearBits, hv])
  · cases (step_writeEvent s .cmd v rest hi).symm.trans h
    exact State.irq_of_not_done (by simp [State.writeReg_cmd_of_idle hb])
  · cases (step_cons s .reset rest hi).symm.trans h
    rfl

end Sys2Proof.Machine


/-! PROOFS. The statement about the reset event (spec/70_reset_and_hazards.md R270 to R272). -/

namespace Sys2Proof.Machine

/-- An operand register is neither ID nor a word of H, the two that need not read 0 after reset. -/
theorem IsOperandReg.ne_id_and_ne_h {r : Reg} (hr : IsOperandReg r) : r ≠ .id ∧ ∀ k, r ≠ .h k := by
  refine ⟨?id, fun k => ?h⟩ <;> rintro rfl <;> simp [IsOperandReg] at hr

/-- A reset event is R55's reset state of the same platform and memory, before the rest of the schedule. -/
theorem step_reset (s : State) (rest : List Event) (hi : s.inputs = .reset :: rest) :
    step s = .next (State.resetWith s.config s.mem rest s.draws) := step_cons s .reset rest hi

/-- Settles O36: the step goes to the reset state, whose registers O37 gives. -/
theorem resetRestoresEveryRegister : Obligations.ResetRestoresEveryRegister := by
  unfold Obligations.ResetRestoresEveryRegister
  intro s rest hi
  obtain ⟨-, hreset⟩ := resetStateHoldsTheResetValues
  obtain ⟨hh, hid, hzero, hengine, -, hsha1, husha0, hirq⟩ := hreset s.config s.mem rest s.draws
  have hoperand (r : Reg) (hr : IsOperandReg r) : (State.resetWith s.config s.mem rest s.draws).readReg r = 0 :=
    hzero r hr.ne_id_and_ne_h.1 hr.ne_id_and_ne_h.2
  exact ⟨_, step_reset s rest hi, rfl, rfl, rfl, hh, hid, hzero .ctrl nofun nofun, hzero .status nofun nofun,
    hzero .cmd nofun nofun, hoperand, hzero .digits nofun nofun, rfl, fun k => hzero (.res k) nofun nofun, rfl, rfl,
    fun k => hzero (.otpStr k) nofun nofun, rfl, hengine, hsha1, husha0, hirq, rfl⟩

end Sys2Proof.Machine


/-! PROOFS. Four statements about the core as a whole: what the outcome of a completion depends on (spec/60_exceptions.md R244),
that commands complete (spec/70_reset_and_hazards.md R280), the dead step of the extender (spec/41_usha0.md R156), and a command
run on an idle core (spec/10_state.md R49). -/

namespace Sys2Proof.Machine

/-! ### The outcome depends on the snapshot and on readability -/

/-- The lowest address found depends only on which addresses of the region lie in the ranges. -/
theorem lowestIn_congr {qs qs' : List AddrRange} {r : Region}
    (h : ∀ a, r.contains a = true → inRanges qs a = inRanges qs' a) : lowestIn qs r = lowestIn qs' r := by
  refine Option.ext fun a => ?_
  rw [lowestIn_eq_some, lowestIn_eq_some]
  refine and_congr_right fun ha => ?_
  rw [h a ha]
  exact and_congr_right fun _ => forall_congr' fun b => forall_congr' fun hb => by rw [h b hb]

/-- A region that passes the range check lies in the address space (R70, R74). -/
theorem lt_of_rangeCheck_eq_none {r : Region} (hr : rangeCheck (some r) = none) {a : Nat} (ha : r.contains a = true) :
    a < 2 ^ 64 := by
  have hwraps : ¬ r.wraps = true := fun hw => by simp [rangeCheck, hw] at hr
  rw [Region.wraps_iff] at hwraps
  rw [Region.contains_iff] at ha
  omega

/-- Past the range check the bus check reads only readability, and only inside the address space (R246). -/
theorem busCheck_congr {c c' : Config} (h : ∀ a, a < 2 ^ 64 → memReadable c a = memReadable c' a) {q : Option Region}
    (hq : rangeCheck q = none) : busCheck c q = busCheck c' q := by
  cases q with
  | none => rfl
  | some r =>
    have hbad (a : Nat) (ha : r.contains a = true) : inRanges c.unreadable a = inRanges c'.unreadable a :=
      Bool.not_inj (h a (lt_of_rangeCheck_eq_none hq ha))
    simp only [busCheck, lowestIn_congr hbad]

/-- Validation reads of the platform only which addresses are readable: the bus checks come after both range checks (R244). -/
theorem validate_congr_config {c c' : Config} (h : ∀ a, a < 2 ^ 64 → memReadable c a = memReadable c' a) (k : Checks)
    (sn : Snapshot) : validate c k sn = validate c' k sn := by
  rw [validate_eq, validate_eq]
  cases hkey : rangeCheck k.key with
  | some e => simp only [Option.some_or]
  | none =>
    cases hdata : rangeCheck k.data with
    | some e => simp only [Option.some_or, Option.none_or]
    | none => rw [busCheck_congr h hkey, busCheck_congr h hdata]

/-- The error a command nobody races fails with is validation's (R242). -/
theorem Unraced.failed {i : Instr} {s t : State} {sn : Snapshot} {e : CmdError} (h : Unraced i s sn)
    (ht : exec i s = .next t) (he : validate s.config (checksOf i sn) sn = some e) :
    t.status.err = true ∧ t.status.errcode = e.code ∧ t.faddr = e.faddrAfter s.faddr := by
  obtain ⟨u, hu, hfail, -⟩ := h.exec_next
  cases hu.symm.trans ht
  rw [hfail e he]
  exact ⟨rfl, rfl, rfl⟩

/-- A command nobody races that passes validation succeeds, also on memory with read side effects (R242, R248). -/
theorem Unraced.succeeded {i : Instr} {s t : State} {sn : Snapshot} (h : Unraced i s sn) (ht : exec i s = .next t)
    (hv : validate s.config (checksOf i sn) sn = none) : t.status.err = false ∧ t.status.errcode = .eNone := by
  obtain ⟨hbusy, hrace⟩ := h
  cases (exec_of_busy i s sn false hbusy).symm.trans ht
  have hout : s.outcome (checksOf i sn) sn (false || s.racesAhead (checksOf i sn)) = none := by
    simpa [State.outcome, hrace] using hv
  rw [State.completeWith_of_outcome_success i sn false _ s hout]
  exact ⟨rfl, rfl⟩

/-- FADDR after E_BUS is the error's own address (R246). -/
theorem CmdError.faddrAfter_of_code_bus {e : CmdError} (h : e.code = .eBus) (old old' : Word64) :
    e.faddrAfter old = e.faddrAfter old' := by
  cases e with
  | bus a => rfl
  | _ => cases h

/-- Settles O23: both runs have one validation, which decides ERR, ERRCODE and the address of an E_BUS. -/
theorem outcomeDependsOnSnapshotAndReadability : Obligations.OutcomeDependsOnSnapshotAndReadability := by
  unfold Obligations.OutcomeDependsOnSnapshotAndReadability
  intro i s s' t t' sn hs hs' hread ht ht'
  have hsame : validate s.config (checksOf i sn) sn = validate s'.config (checksOf i sn) sn :=
    validate_congr_config hread _ _
  cases hv : validate s'.config (checksOf i sn) sn with
  | some e =>
    obtain ⟨herr, hcode, hfaddr⟩ := hs.failed ht (hsame.trans hv)
    obtain ⟨herr', hcode', hfaddr'⟩ := hs'.failed ht' hv
    refine ⟨herr.trans herr'.symm, hcode.trans hcode'.symm, fun hbus => ?_⟩
    rw [hfaddr, hfaddr', CmdError.faddrAfter_of_code_bus (hcode.symm.trans hbus)]
  | none =>
    obtain ⟨herr, hcode⟩ := hs.succeeded ht (hsame.trans hv)
    obtain ⟨herr', hcode'⟩ := hs'.succeeded ht' hv
    refine ⟨herr.trans herr'.symm, hcode.trans hcode'.symm, fun hbus => ?_⟩
    cases hcode.symm.trans hbus

/-! ### The engine finishes once events stop coming -/

/-- After the engine's own step no command is in flight (R242). -/
theorem State.busy_of_complete {s t : State} (h : s.complete = .next t) : t.busy = false := by
  rcases s.complete_cases with ⟨he, hc⟩ | ⟨_, _, -, -, hc⟩ | ⟨_, _, _, _, -, -, hc⟩ | ⟨_, _, _, -, -, hc⟩ <;>
    cases hc.symm.trans h
  · exact State.busy_of_idle he
  all_goals rfl

/-- Settles O34, by induction on the schedule: each step takes one event, and the last is the engine's own. -/
theorem acceptedCommandsComplete : Obligations.AcceptedCommandsComplete := by
  unfold Obligations.AcceptedCommandsComplete
  intro s
  induction hi : s.inputs generalizing s with
  | nil =>
    obtain ⟨t, hc, -⟩ := s.complete_next
    obtain ⟨-, hinputs⟩ := s.complete_frame t hc
    exact ⟨t, (run_succ s t 0 ((step_nil s hi).trans hc)).trans (run_zero t), hinputs.trans hi, State.busy_of_complete hc⟩
  | cons e rest ih =>
    obtain ⟨t, ht⟩ := State.apply_next { s with inputs := rest } e
    obtain ⟨-, hinputs⟩ := State.apply_frame _ t e ht
    obtain ⟨u, hrun, hu⟩ := ih t hinputs
    exact ⟨u, (run_succ s t _ ((step_cons s e rest hi).trans ht)).trans hrun, hu⟩

/-! ### Step 2 of Phase C is dead

Step 2 writes word j - 3, which steps 3 to 6 do not read and step 7 overwrites. So the write moves past steps 3 to 6 and
is lost at step 7. -/

theorem extAt_set_of_ne (E : List Word64) (w : Word64) {m i : Nat} (h : i ≠ m) : extAt (E.set m w) i = extAt E i := by
  simp [extAt, List.getD, List.getElem?_set_ne h.symm]

/-- A write of word j - 3 moves past a write of another word. -/
theorem set_step2_set (E : List Word64) (w v : Word64) {j i : Nat} (h : i ≠ j - 3) :
    (E.set (j - 3) w).set i v = (E.set i v).set (j - 3) w := List.set_comm _ _ h.symm

theorem phaseCWithoutStep2_eq (E : List Word64) {j : Nat} (h : 20 ≤ j) :
    phaseCWithoutStep2 E j = usha0PhaseC E j := by
  simp (disch := omega) only [phaseCWithoutStep2, usha0PhaseC, extAt_set_of_ne, set_step2_set, List.set_set]

/-- Settles O53: Phase C runs from j = 20 on, where each of its rounds is the same without step 2. -/
theorem extenderStep2IsDead : Obligations.ExtenderStep2IsDead := fun _ =>
  List.foldl_ext _ _ _ fun E _ hj => phaseCWithoutStep2_eq E (List.mem_range'_1.1 hj).1

/-! ### A command run on an idle core -/

/-- Settles O7: on an idle engine `exec` completes the accepted word, and so it does on the state after acceptance. -/
theorem idleCommandIsAcceptedThenCompleted : Obligations.IdleCommandIsAcceptedThenCompleted := by
  unfold Obligations.IdleCommandIsAcceptedThenCompleted
  intro s i he
  calc exec i s
      = .next ((s.accept (encode i)).completeWith i (s.snapshot (encode i)) false (resultOf i s.config)) := by
        rw [exec_eq_perform, State.perform_of_idle i _ s he]
    _ = exec i (s.accept (encode i)) := (exec_of_busy i _ _ false rfl).symm

end Sys2Proof.Machine
